-- ==== Sys2Proof/Word.lean ====
section
/-! DEFINITION. The word types of the block: every value of the spec is unsigned (00_scope.md rule R11), and each
field has exactly the width its range gives it (00_scope.md rule R8). -/

namespace Sys2Proof

/-- One byte of a frame or of a response (00_scope.md rule R12). -/
abbrev Byte := BitVec 8

/-- A 16-bit field: `address`, `length`, `RET_LEN`, `RX_COUNT` (00_scope.md rule R8, 10_state.md rules R22, R23). -/
abbrev Half := BitVec 16

/-- A 32-bit field: `data`, `expected`, `STATUS` (00_scope.md rule R8, 10_state.md rule R28). -/
abbrev Word := BitVec 32

/-- The 128-bit command word of the command port (30_encoding.md rule R61). -/
abbrev CmdWord := BitVec 128

end Sys2Proof
end

