-- ==== Sys2Proof/Ports.lean ====
section
/-! DEFINITION. The block's ports as data: what the environment presents in one block step, and what the block drives
(10_state.md rules R31 to R35). -/

namespace Sys2Proof

/-- Everything the environment presents on the block's input ports in ONE block step (10_state.md rules R31, R32 and
R35). The host, the transport and `rst` are inputs of the step, free draws of the environment (10_state.md rule R14). -/
structure PortIn where
  /-- `rst`, the reset input (10_state.md rule R35). -/
  rst : Bool
  /-- `cmd_valid`: the host presents a command (10_state.md rule R31). -/
  cmdValid : Bool
  /-- `cmd_word`: the presented command word (10_state.md rule R31). -/
  cmdWord : CmdWord
  /-- `tp_open`: the transport's `isOpen()` (10_state.md rule R32). -/
  tpOpen : Bool
  /-- `tp_wr_ack`: the transport reports that the write succeeded (10_state.md rule R32). -/
  tpWrAck : Bool
  /-- `tp_wr_err`: the transport reports that the write failed (10_state.md rule R32). -/
  tpWrErr : Bool
  /-- `tp_rx_valid`: one response byte is offered in this step (10_state.md rule R32). -/
  tpRxValid : Bool
  /-- `tp_rx_byte`: the offered byte (10_state.md rule R32). -/
  tpRxByte : Byte
  /-- `tp_rd_done`: the read has ended (10_state.md rule R32). -/
  tpRdDone : Bool
deriving DecidableEq, Repr, Inhabited

/-- An 11-byte frame buffer, `FB[0..10]` (10_state.md rule R21), and the port `tp_wr_byte0 .. tp_wr_byte10` that shows
it (10_state.md rule R32). -/
structure FrameBuf where
  b0 : Byte
  b1 : Byte
  b2 : Byte
  b3 : Byte
  b4 : Byte
  b5 : Byte
  b6 : Byte
  b7 : Byte
  b8 : Byte
  b9 : Byte
  b10 : Byte
deriving DecidableEq, Repr, Inhabited

/-- The signals of the report port but `rpt_valid` (10_state.md rule R33, 60_exceptions.md rule R160): the event of one
completed transaction. -/
structure Report where
  /-- `rpt_rw` -/
  rw : Byte
  /-- `rpt_addr` -/
  addr : Half
  /-- `rpt_exp_valid` -/
  expValid : Bool
  /-- `rpt_exp` -/
  exp : Word
  /-- `rpt_value_valid` -/
  valueValid : Bool
  /-- `rpt_value`, an `ACC_BITS`-bit value, held exactly -/
  value : Nat
  /-- `rpt_mismatch` -/
  mismatch : Bool
  /-- `rpt_mm_received`, an `ACC_BITS`-bit value, held exactly -/
  mmReceived : Nat
deriving DecidableEq, Repr, Inhabited

end Sys2Proof
end

