-- ==== Sys2Proof/Config.lean ====
section
/-! DEFINITION. The fixed constants of the block (00_scope.md rule R7), the default of its one build parameter
(00_scope.md rule R9), and the free draws of the environment (10_state.md rule R14). -/

namespace Sys2Proof.Config

/-- `DEV_ID`, the device ID, frame byte 0 (00_scope.md rule R7, 10_state.md rule R16). -/
def devId : Byte := 0x31#8

/-- `ACK_DEFAULT`, the default expected value of a WRITE (00_scope.md rule R7, 10_state.md rule R16). -/
def ackDefault : Byte := 0x32#8

/-- `DEFAULT_LEN`, the length used when none is given (00_scope.md rule R7). -/
def defaultLen : Half := 4#16

/-- `RW_READ`, the rw byte of a read frame and the `OP` of READ (00_scope.md rule R7, 30_encoding.md rule R65). -/
def rwRead : Byte := 0x00#8

/-- `RW_WRITE`, the rw byte of a write frame and the `OP` of WRITE (00_scope.md rule R7, 30_encoding.md rule R65). -/
def rwWrite : Byte := 0x01#8

/-- `READ_FRAME_LEN`, the bytes of a read frame (00_scope.md rule R7). -/
def readFrameLen : Nat := 7

/-- `WRITE_FRAME_LEN`, the bytes of a write frame (00_scope.md rule R7). -/
def writeFrameLen : Nat := 11

/-- `WRITE_RET_LEN`, the response bytes a write asks for (00_scope.md rule R7). -/
def writeRetLen : Half := 1#16

/-- The default of the build parameter `ACC_BITS`, `8 * 65535` (00_scope.md rule R9). The build's own value stands in
`State.accBits` (log entry 4). -/
def defaultAccBits : Nat := 524280

/-- FREE VALUE: what the environment presents on the input ports in the `n`-th block step that runs after the state's
port script is used up. DESIGN CHOICE (log entry 1): the inputs are free draws (10_state.md rule R14), so this constant
has no body and nothing can be proved of its values. -/
opaque freePorts : Nat → PortIn

end Sys2Proof.Config
end

