-- ==== Sys2Proof/Machine/State.lean ====
section
/-! DEFINITION. The state of the block: every register of 10_state.md rules R15 to R26 with its reset value, and beside
them the model's own fields (the build parameter, the port script, the draw counter and the journal). -/

namespace Sys2Proof.Machine

/-- `STATE`, the sequencer's state, a 4-bit register with nine legal values (10_state.md rule R15). The values 9 to 15 are
never entered and are not represented (93_implementation_defined.md X3, log entry 5). -/
inductive SeqState where
  /-- 0, waiting for a command -/
  | idle
  /-- 1, transport-open precondition and rw check -/
  | check
  /-- 2, build the command and encode the frame -/
  | build
  /-- 3, write the frame to the transport -/
  | send
  /-- 4, read the response -/
  | recv
  /-- 5, parse the response -/
  | parse
  /-- 6, compare and record the result -/
  | compare
  /-- 7, return the result and report -/
  | done
  /-- 8, error exit -/
  | error
deriving DecidableEq, Repr

/-- `E_CLASS`, a 2-bit register; the value 3 is never written (10_state.md rule R25, log entry 5). -/
inductive ErrClass where
  /-- 0, no error -/
  | none
  /-- 1, ConfigurationError -/
  | configuration
  /-- 2, TransportError -/
  | transport
deriving DecidableEq, Repr

/-- `E_CAUSE`, a 2-bit register; the value 3 is never written (10_state.md rule R25, log entry 5). -/
inductive CfgCause where
  /-- 0, no cause -/
  | none
  /-- 1, CLOSED: the transport is not open -/
  | closed
  /-- 2, BAD_RW: the op is neither Read nor Write -/
  | badRw
deriving DecidableEq, Repr

/-- The command registers `C_RW`, `C_ADDR`, `C_LEN`, `C_DATA`, `C_EXP_VALID` and `C_EXP` (10_state.md rule R18). -/
structure Command where
  rw : Byte
  addr : Half
  len : Half
  data : Word
  expValid : Bool
  exp : Word
deriving DecidableEq, Repr

/-- The result registers `R_VALID`, `R_RW`, `R_ADDR`, `R_LEN`, `R_DATA`, `R_EXP_VALID`, `R_EXP`, `R_RECV_VALID`,
`R_RECEIVED`, `R_READBACK_FAILED` and `R_MISMATCH` (10_state.md rule R26). `R_RECEIVED` is `ACC_BITS` wide and is held
exactly, as a natural number (log entry 4). -/
structure Result where
  valid : Bool
  rw : Byte
  addr : Half
  len : Half
  data : Word
  expValid : Bool
  exp : Word
  recvValid : Bool
  received : Nat
  readbackFailed : Bool
  mismatch : Bool
deriving DecidableEq, Repr

/-- Every register of the block. -/
structure Regs where
  /-- `STATE` (10_state.md rule R15) -/
  seq : SeqState
  /-- `CW`, the command latch (10_state.md rule R17) -/
  cw : CmdWord
  /-- the `C_*` registers (10_state.md rule R18) -/
  cmd : Command
  /-- `FB[0..10]`, the frame buffer (10_state.md rule R21) -/
  fb : FrameBuf
  /-- `FB_LEN` (10_state.md rule R21) -/
  fbLen : BitVec 4
  /-- `RET_LEN` (10_state.md rule R22) -/
  retLen : Half
  /-- `ACC`, the `ACC_BITS`-bit response accumulator (10_state.md rule R23), held exactly (log entry 4) -/
  acc : Nat
  /-- `RX_COUNT` (10_state.md rule R23) -/
  rxCount : Half
  /-- `P_RECV_VALID` (10_state.md rule R24) -/
  pRecvValid : Bool
  /-- `P_RBF` (10_state.md rule R24) -/
  pRbf : Bool
  /-- `P_MISMATCH` (10_state.md rule R24) -/
  pMismatch : Bool
  /-- `E_CLASS` (10_state.md rule R25) -/
  eClass : ErrClass
  /-- `E_CAUSE` (10_state.md rule R25) -/
  eCause : CfgCause
  /-- the `R_*` registers (10_state.md rule R26) -/
  res : Result
deriving DecidableEq, Repr

/-- What the block asks of the transport and tells the sink and the host, recorded because a command's effect lies outside
the registers too (log entry 3). -/
inductive Event where
  /-- `tp_wr_req` rises: SEND is entered and presents this frame (42_transaction_sequencer.md rule R113). -/
  | writeRequested (frame : List Byte)
  /-- the frame write ended, with success or not (42_transaction_sequencer.md rule R114). -/
  | writeEnded (ok : Bool)
  /-- `tp_rd_req` rises: RECV is entered and asks for up to this many bytes (42_transaction_sequencer.md rule R115). -/
  | readRequested (max : Half)
  /-- `tp_rd_done` ended the read (42_transaction_sequencer.md rule R115). -/
  | readEnded
  /-- a step with `tp_close = 1` (42_transaction_sequencer.md rule R120). -/
  | transportClosed
  /-- a step with `rpt_valid = 1`, and the event it carries (60_exceptions.md rule R160). -/
  | reported (r : Report)
  /-- a step with `rsp_valid = 1`: the accepted command has ended (10_state.md rule R34). -/
  | commandEnded
deriving DecidableEq, Repr

/-- The machine's state. -/
structure State where
  /-- the block's registers -/
  regs : Regs
  /-- the build parameter `ACC_BITS` (00_scope.md rule R9); no step changes it (log entry 4) -/
  accBits : Nat
  /-- the model's own: what the environment presents in the next block steps, first step first (log entry 1) -/
  ports : List PortIn
  /-- the model's own: how many free draws have been taken since the port script was used up (log entry 1) -/
  drawn : Nat
  /-- the model's own: what has been asked of the transport and told to the sink and the host, oldest first (log entry 3) -/
  journal : List Event
deriving DecidableEq, Repr

/-- No step of the block stops with a fault: an error of the spec is an ERROR state that the block enters and leaves
(60_exceptions.md rule R141), and the states the spec calls a fault cannot be written down (93_implementation_defined.md
X3, log entry 5). -/
inductive Fault where
deriving DecidableEq, Repr

/-- Why the model gives a step no meaning. -/
inductive Refusal where
  /-- Raised by `exec` for an instruction of the table that has no meaning yet. Safe. No arm raises it. -/
  | notModelled (mnemonic : String)
  /-- Raised by RECV in a build with a small accumulator, when one more response byte would take `RX_COUNT` beyond
  `ACC_BITS / 8` (41_response_parser.md rule R103: "A model of such a build refuses any run in which `RX_COUNT` would
  exceed `ACC_BITS / 8`"). Safe. The default build never raises it. -/
  | responseExceedsAccumulator
deriving DecidableEq, Repr

/-- The reset values of the command registers (10_state.md rule R18). -/
def Command.reset : Command where
  rw := 0#8
  addr := 0#16
  len := 0#16
  data := 0#32
  expValid := false
  exp := 0#32

/-- The reset values of the result registers (10_state.md rule R26). -/
def Result.reset : Result where
  valid := false
  rw := 0#8
  addr := 0#16
  len := 0#16
  data := 0#32
  expValid := false
  exp := 0#32
  recvValid := false
  received := 0
  readbackFailed := false
  mismatch := false

/-- The reset value of the frame buffer: every byte 0 (10_state.md rule R21). -/
def frameBufReset : FrameBuf where
  b0 := 0#8
  b1 := 0#8
  b2 := 0#8
  b3 := 0#8
  b4 := 0#8
  b5 := 0#8
  b6 := 0#8
  b7 := 0#8
  b8 := 0#8
  b9 := 0#8
  b10 := 0#8

/-- The reset value of every register (70_reset_and_hazards.md rule R171). -/
def Regs.reset : Regs where
  seq := .idle
  cw := 0#128
  cmd := .reset
  fb := frameBufReset
  fbLen := 0#4
  retLen := 0#16
  acc := 0
  rxCount := 0#16
  pRecvValid := false
  pRbf := false
  pMismatch := false
  eClass := .none
  eCause := .none
  res := .reset

/-- The machine right after reset (70_reset_and_hazards.md rules R171 and R173). The registers have the spec's reset
values. The model's own fields: the default build, no scripted input, no draw taken, an empty journal (DESIGN CHOICE, log
entries 1, 3 and 4). -/
def State.reset : State where
  regs := .reset
  accBits := Config.defaultAccBits
  ports := []
  drawn := 0
  journal := []

end Sys2Proof.Machine
end

