-- ==== Sys2Proof/Machine/Flags.lean ====
section
/-! DEFINITION. The flags of a result and the status word (10_state.md rules R28 and R29). -/

namespace Sys2Proof.Machine

/-- `P_RECV_VALID` as PARSE computes it (42_transaction_sequencer.md rule R116). -/
def recvValidFlag (r : Regs) : Bool := r.rxCount != 0#16

/-- `P_RBF` as PARSE computes it (42_transaction_sequencer.md rule R116). -/
def readbackFailedFlag (r : Regs) : Bool := r.rxCount == 0#16

/-- `mm` as COMPARE computes it: exact equality of unsigned integers, `C_EXP` zero-extended
(42_transaction_sequencer.md rule R117). -/
def mismatchFlag (r : Regs) : Bool := r.cmd.expValid && r.pRecvValid && r.cmd.exp.toNat != r.acc

/-- The code of a sequencer state in `STATE` (10_state.md rule R15). -/
def seqCode : SeqState → BitVec 4
  | .idle => 0#4
  | .check => 1#4
  | .build => 2#4
  | .send => 3#4
  | .recv => 4#4
  | .parse => 5#4
  | .compare => 6#4
  | .done => 7#4
  | .error => 8#4

/-- The code of an error class in `E_CLASS` (10_state.md rule R25). -/
def classCode : ErrClass → BitVec 2
  | .none => 0#2
  | .configuration => 1#2
  | .transport => 2#2

/-- The code of a cause in `E_CAUSE` (10_state.md rule R25). -/
def causeCode : CfgCause → BitVec 2
  | .none => 0#2
  | .closed => 1#2
  | .badRw => 2#2

/-- `STATUS`, assembled from the registers, most significant field first; bits [31:14] are always 0 (10_state.md rule
R28). -/
def statusWord (r : Regs) : Word :=
  0#18 ++ BitVec.ofBool r.res.expValid ++ BitVec.ofBool r.res.recvValid ++ BitVec.ofBool r.res.mismatch
    ++ BitVec.ofBool r.res.readbackFailed ++ BitVec.ofBool r.res.valid ++ causeCode r.eCause ++ classCode r.eClass
    ++ BitVec.ofBool (r.seq != .idle) ++ seqCode r.seq

end Sys2Proof.Machine
end

