-- ==== Sys2Proof/Machine/Frame.lean ====
section
/-! DEFINITION. The frame encoder: pure functions of their operands (40_frame_encoder.md rules R81 to R89). -/

namespace Sys2Proof.Machine

/-- `BE16`, the big-endian split of 16 bits (40_frame_encoder.md rule R81). -/
def be16 (v : Half) : List Byte := [v.extractLsb' 8 8, v.extractLsb' 0 8]

/-- `BE32`, the big-endian split of 32 bits (40_frame_encoder.md rule R81). -/
def be32 (v : Word) : List Byte :=
  [v.extractLsb' 24 8, v.extractLsb' 16 8, v.extractLsb' 8 8, v.extractLsb' 0 8]

/-- The check byte of an ID, computed from it every time (40_frame_encoder.md rule R82). -/
def checkByte (id : Byte) : Byte := id ^^^ 0xFF#8

/-- PACK_READ (40_frame_encoder.md rule R83, 30_encoding.md rule R67). -/
def packRead (address length : Half) : List Byte :=
  [Config.devId, checkByte Config.devId, Config.rwRead] ++ be16 address ++ be16 length

/-- PACK_WRITE (40_frame_encoder.md rule R84, 30_encoding.md rule R68). -/
def packWrite (address length : Half) (data : Word) : List Byte :=
  [Config.devId, checkByte Config.devId, Config.rwWrite] ++ be16 address ++ be16 length ++ be32 data

/-- `Pack`; `none` stands for `raise ConfigurationError(BAD_RW)`, no frame (40_frame_encoder.md rule R85). -/
def pack (rw : Byte) (address length : Half) (data : Word) : Option (List Byte) :=
  if rw = Config.rwRead then some (packRead address length)
  else if rw = Config.rwWrite then some (packWrite address length data)
  else none

/-- RETURN_LENGTH (40_frame_encoder.md rule R86). The sequencer calls it for a legal `rw` only, after `pack` gave a
frame; its last arm is the write's. -/
def returnLength (rw : Byte) (length : Half) : Half :=
  if rw = Config.rwRead then length else Config.writeRetLen

/-- `UnpackAddr` (40_frame_encoder.md rule R88). -/
def unpackAddr (f : List Byte) : Nat := (f.getD 3 0#8).toNat <<< 8 ||| (f.getD 4 0#8).toNat

/-- `UnpackLen` (40_frame_encoder.md rule R88). -/
def unpackLen (f : List Byte) : Nat := (f.getD 5 0#8).toNat <<< 8 ||| (f.getD 6 0#8).toNat

/-- `UnpackData`, of a write frame only (40_frame_encoder.md rule R88). -/
def unpackData (f : List Byte) : Nat :=
  (f.getD 7 0#8).toNat <<< 24 ||| (f.getD 8 0#8).toNat <<< 16 ||| (f.getD 9 0#8).toNat <<< 8 ||| (f.getD 10 0#8).toNat

/-- The eleven bytes of the frame buffer, `FB[0]` first. -/
def bufferBytes (b : FrameBuf) : List Byte := [b.b0, b.b1, b.b2, b.b3, b.b4, b.b5, b.b6, b.b7, b.b8, b.b9, b.b10]

/-- `for i in 0 .. len(f)-1: FB[i] <- f[i]`: the bytes at and after `len(f)` are unchanged
(42_transaction_sequencer.md rule R112). -/
def storeFrame (f : List Byte) (b : FrameBuf) : FrameBuf where
  b0 := f.getD 0 b.b0
  b1 := f.getD 1 b.b1
  b2 := f.getD 2 b.b2
  b3 := f.getD 3 b.b3
  b4 := f.getD 4 b.b4
  b5 := f.getD 5 b.b5
  b6 := f.getD 6 b.b6
  b7 := f.getD 7 b.b7
  b8 := f.getD 8 b.b8
  b9 := f.getD 9 b.b9
  b10 := f.getD 10 b.b10

/-- The frame that SEND presents, `[FB[0], ..., FB[FB_LEN-1]]` (42_transaction_sequencer.md rule R113). -/
def presentedFrame (r : Regs) : List Byte := (bufferBytes r.fb).take r.fbLen.toNat

end Sys2Proof.Machine
end

