-- ==== Sys2Proof/Asm.lean ====
section
/-! DEFINITION. The command syntax of 30_encoding.md rule R74 as data; its encoding rules stand in Decode.lean. -/

namespace Sys2Proof

/-- A line of the command syntax (30_encoding.md rule R74). `none` stands for an absent `len=` or `exp=`. -/
inductive Asm where
  /-- `READ <address> [, len=<length>] [, exp=<expected>]` -/
  | read (address : Half) (len : Option Half) (exp : Option Word)
  /-- `WRITE <address>, <data> [, len=<length>] [, exp=<expected>]` -/
  | write (address : Half) (data : Word) (len : Option Half) (exp : Option Word)
  /-- `RAW <32 hex digits>` -/
  | raw (word : CmdWord)
deriving DecidableEq, Repr

end Sys2Proof
end

