-- ==== Sys2Proof/Syntax.lean ====
section
/-! DEFINITION. The two commands of the opcode map (30_encoding.md rule R65, opcode_table.json). -/

namespace Sys2Proof

/-- The fields of a command word other than `OP` (30_encoding.md rule R61), most significant first. The reserved fields
are kept because the latch `CW` holds the whole presented word (10_state.md rule R17); no rule reads them (30_encoding.md
rule R64). -/
structure CmdFields where
  /-- bits [127:112], reserved -/
  rsvHi : BitVec 16
  /-- bits [111:80], `EXP` -/
  exp : Word
  /-- bits [79:48], `DATA` -/
  data : Word
  /-- bits [47:32], `LEN` -/
  len : Half
  /-- bits [31:16], `ADDR` -/
  addr : Half
  /-- bits [15:10], reserved -/
  rsvLo : BitVec 6
  /-- bit [9], `EXP_VALID` -/
  expValid : Bool
  /-- bit [8], `LEN_VALID` -/
  lenValid : Bool
deriving DecidableEq, Repr, Inhabited

/-- The instructions: one constructor per row of opcode_table.json. -/
inductive Instr where
  /-- READ, `OP = 0x00` (42_transaction_sequencer.md rule R107). -/
  | read (f : CmdFields)
  /-- WRITE, `OP = 0x01` (42_transaction_sequencer.md rule R108). -/
  | write (f : CmdFields)
deriving DecidableEq, Repr

/-- The fields of a command, whichever it is. -/
def Instr.fields : Instr → CmdFields
  | .read f => f
  | .write f => f

end Sys2Proof
end

