-- ==== Sys2Proof/Decode.lean ====
section
/-! DEFINITION. The decoder of a command word, total on all 128-bit words and rejecting an illegal `OP` by name; then the
encoder, the assembler's encoding rules, and the host's view of the opcode table. -/

namespace Sys2Proof

/-- Why a command word is no instruction of the opcode map. -/
inductive DecodeError where
  /-- `OP` is neither 0x00 nor 0x01 (30_encoding.md rule R66). The block still accepts the word; it ends in
  ConfigurationError (60_exceptions.md rule R143). -/
  | illegalOp (op : Byte)
deriving DecidableEq, Repr

/-- `OP`, bits [7:0] of a command word (30_encoding.md rule R61). -/
def opField (w : CmdWord) : Byte := w.extractLsb' 0 8

/-- The other fields of a command word, each at its place in 30_encoding.md rule R61. -/
def fieldsOf (w : CmdWord) : CmdFields where
  rsvHi := w.extractLsb' 112 16
  exp := w.extractLsb' 80 32
  data := w.extractLsb' 48 32
  len := w.extractLsb' 32 16
  addr := w.extractLsb' 16 16
  rsvLo := w.extractLsb' 10 6
  expValid := w.getLsbD 9
  lenValid := w.getLsbD 8

/-- The decoder (30_encoding.md rule R76): bits [7:0] select READ, WRITE or, for every other value, an illegal `OP`. -/
def decode (w : CmdWord) : Except DecodeError Instr :=
  if opField w = Config.rwRead then .ok (.read (fieldsOf w))
  else if opField w = Config.rwWrite then .ok (.write (fieldsOf w))
  else .error (.illegalOp (opField w))

/-- A command word laid out from its fields and its `OP` (30_encoding.md rule R61), most significant field first. -/
def layOut (op : Byte) (f : CmdFields) : CmdWord :=
  f.rsvHi ++ f.exp ++ f.data ++ f.len ++ f.addr ++ f.rsvLo ++ BitVec.ofBool f.expValid ++ BitVec.ofBool f.lenValid ++ op

/-- The encoder: the command word of an instruction (30_encoding.md rules R61 and R65). -/
def encode : Instr → CmdWord
  | .read f => layOut Config.rwRead f
  | .write f => layOut Config.rwWrite f

/-- The fields that an assembler line gives: an absent `len=` or `exp=` leaves its valid bit and its field 0, and the
reserved bits are 0 (30_encoding.md rule R74). -/
def asmFields (address : Half) (data : Word) (len : Option Half) (exp : Option Word) : CmdFields where
  rsvHi := 0#16
  exp := exp.getD 0#32
  data := data
  len := len.getD 0#16
  addr := address
  rsvLo := 0#6
  expValid := exp.isSome
  lenValid := len.isSome

/-- The word an assembler line stands for (30_encoding.md rule R74): `READ` sets `DATA = 0`, and `RAW` presents its word
unchanged. -/
def assemble : Asm → CmdWord
  | .read a l e => encode (.read (asmFields a 0#32 l e))
  | .write a d l e => encode (.write (asmFields a d l e))
  | .raw w => w

/-- The command word whose `nbits` low bits are those of `w`, every bit above 0. The command port takes the whole word at
once, bit 0 of the table's numbering at bit 0 of `cmd_word` (30_encoding.md rules R61 and R76). -/
def tableWord (nbits w : Nat) : CmdWord := BitVec.ofNat 128 (w % 2 ^ nbits)

/-- The instruction the decoder reads from an instruction of the opcode table whose bits are `w`. -/
def decodeTableWord (nbits w : Nat) : Option Instr :=
  match decode (tableWord nbits w) with
  | .ok i => some i
  | .error _ => none

end Sys2Proof
end

