-- ==== Sys2Proof/Machine/Operands.lean ====
section
/-! DEFINITION. The operands of a command, taken from its word with their defaults (30_encoding.md rule R72,
42_transaction_sequencer.md rule R112). -/

namespace Sys2Proof.Machine

/-- Whether `OP` is READ or WRITE (42_transaction_sequencer.md rule R111). -/
def legalOp (w : CmdWord) : Bool := opField w == Config.rwRead || opField w == Config.rwWrite

/-- `length`: the field, or 4 where the host left it unspecified (30_encoding.md rule R62). -/
def lengthOperand (f : CmdFields) : Half := if f.lenValid then f.len else Config.defaultLen

/-- `C_EXP_VALID`: whether `expected` is set, which it always is for a WRITE (30_encoding.md rule R63). -/
def expectedSet (op : Byte) (f : CmdFields) : Bool := f.expValid || op == Config.rwWrite

/-- `C_EXP`: the field, or the ack value of a WRITE, or 0 where `expected` is not set (30_encoding.md rule R63,
42_transaction_sequencer.md rule R112). -/
def expectedOperand (op : Byte) (f : CmdFields) : Word :=
  if f.expValid then f.exp else if op = Config.rwWrite then Config.ackDefault.setWidth 32 else 0#32

/-- The command registers' values for a command word (42_transaction_sequencer.md rule R112). -/
def operandsOf (w : CmdWord) : Command where
  rw := opField w
  addr := (fieldsOf w).addr
  len := lengthOperand (fieldsOf w)
  data := (fieldsOf w).data
  expValid := expectedSet (opField w) (fieldsOf w)
  exp := expectedOperand (opField w) (fieldsOf w)

end Sys2Proof.Machine
end

