-- ==== Sys2Proof/Machine/Ops.lean ====
section
/-! DEFINITION. The named operations on the state: the port script, the moves of the sequencer, taking an error and
returning from it, and reset. -/

namespace Sys2Proof.Machine

/-- What the environment presents in the next block step: the port script's first entry, or a free draw once the script
is used up (10_state.md rule R14, log entry 1). -/
def nextPorts (s : State) : PortIn :=
  match s.ports with
  | [] => Config.freePorts s.drawn
  | p :: _ => p

/-- The state once the next block step's inputs have been taken. -/
def dropPorts (s : State) : State :=
  match s.ports with
  | [] => { s with drawn := s.drawn + 1 }
  | _ :: ps => { s with ports := ps }

/-- `state <- S` (00_scope.md rule R13). -/
def goto (q : SeqState) (r : Regs) : Regs := { r with seq := q }

/-- TAKING AN ERROR: `raise ConfigurationError(cause)` and `raise TransportError()` write the class and the cause and
enter ERROR; nothing else is written (60_exceptions.md rule R141). -/
def raiseError (c : ErrClass) (k : CfgCause) (r : Regs) : Regs :=
  { r with eClass := c, eCause := k, seq := .error }

/-- RETURNING FROM AN ERROR: ERROR lasts one step, writes no register and enters IDLE; the class and the cause stay
(60_exceptions.md rule R151, 42_transaction_sequencer.md rule R120). -/
def leaveError (r : Regs) : Regs := { r with seq := .idle }

/-- Accepting a command: the word is latched and the error registers are cleared (42_transaction_sequencer.md rule
R110). -/
def acceptCommand (w : CmdWord) (r : Regs) : Regs :=
  { r with cw := w, eClass := .none, eCause := .none, seq := .check }

end Sys2Proof.Machine
end

