-- ==== Sys2Proof/Machine/Outputs.lean ====
section
/-! DEFINITION. The output ports: functions of the registers (00_scope.md rule R10, 10_state.md rules R31 to R34). -/

namespace Sys2Proof.Machine

/-- Every output signal of the block (10_state.md rules R31 to R34). -/
structure PortOut where
  /-- `cmd_ready` -/
  cmdReady : Bool
  /-- `tp_wr_req` -/
  tpWrReq : Bool
  /-- `tp_wr_len` -/
  tpWrLen : BitVec 4
  /-- `tp_wr_byte0 .. tp_wr_byte10` -/
  tpWrByte : FrameBuf
  /-- `tp_rd_req` -/
  tpRdReq : Bool
  /-- `tp_rd_max` -/
  tpRdMax : Half
  /-- `tp_close` -/
  tpClose : Bool
  /-- `rpt_valid` -/
  rptValid : Bool
  /-- the other signals of the report port -/
  rpt : Report
  /-- `status` -/
  status : Word
  /-- `r_rw` -/
  rRw : Byte
  /-- `r_addr` -/
  rAddr : Half
  /-- `r_len` -/
  rLen : Half
  /-- `r_data` -/
  rData : Word
  /-- `r_exp_valid` -/
  rExpValid : Bool
  /-- `r_exp` -/
  rExp : Word
  /-- `r_recv_valid` -/
  rRecvValid : Bool
  /-- `r_received` -/
  rReceived : Nat
  /-- `r_mismatch` -/
  rMismatch : Bool
  /-- `rsp_valid` -/
  rspValid : Bool
deriving DecidableEq, Repr

/-- The report event of the result registers: the data of a WRITE, the received value of a READ (60_exceptions.md rule
R160). An `R_RW` that is neither does not occur; it is reported as a READ (DESIGN CHOICE, log entry 8). -/
def reportOf (r : Result) : Report where
  rw := r.rw
  addr := r.addr
  expValid := r.expValid
  exp := r.exp
  valueValid := if r.rw = Config.rwWrite then true else r.recvValid
  value := if r.rw = Config.rwWrite then r.data.toNat else r.received
  mismatch := r.mismatch
  mmReceived := r.received

/-- The output ports in a block step, from the registers at its start. `cmd_ready` is 0 while `rst = 1`
(70_reset_and_hazards.md rule R171); every other output is a function of the registers alone (log entry 6). -/
def outputs (rst : Bool) (r : Regs) : PortOut where
  cmdReady := r.seq == .idle && !rst
  tpWrReq := r.seq == .send
  tpWrLen := r.fbLen
  tpWrByte := r.fb
  tpRdReq := r.seq == .recv
  tpRdMax := r.retLen
  tpClose := r.seq == .error && r.eClass == .transport
  rptValid := r.seq == .done
  rpt := reportOf r.res
  status := statusWord r
  rRw := r.res.rw
  rAddr := r.res.addr
  rLen := r.res.len
  rData := r.res.data
  rExpValid := r.res.expValid
  rExp := r.res.exp
  rRecvValid := r.res.recvValid
  rReceived := r.res.received
  rMismatch := r.res.mismatch
  rspValid := r.seq == .done || r.seq == .error

end Sys2Proof.Machine
end

