-- ==== Sys2Proof/Machine/Parser.lean ====
section
/-! DEFINITION. The response parser: the reference function and its byte step in hardware (41_response_parser.md). -/

namespace Sys2Proof.Machine

/-- One round of the accumulation, `acc <- (acc << 8) | byte` (41_response_parser.md rule R96). The natural number has no
width limit, so no bit is ever shifted out. -/
def accumulateByte (acc : Nat) (b : Byte) : Nat := acc <<< 8 ||| b.toNat

/-- PARSE_INT (41_response_parser.md rule R96). -/
def parseInt : List Byte → Option Nat
  | [] => none
  | b :: bs => some ((b :: bs).foldl accumulateByte 0)

/-- ACCUMULATE: RECV absorbs one response byte (41_response_parser.md rule R97). -/
def absorbByte (b : Byte) (r : Regs) : Regs :=
  { r with acc := accumulateByte r.acc b, rxCount := r.rxCount + 1#16 }

/-- The largest `RX_COUNT` that a build's accumulator holds exactly (41_response_parser.md rule R103). -/
def accumulatorBytes (accBits : Nat) : Nat := accBits / 8

end Sys2Proof.Machine
end

