-- ==== Sys2Proof/Machine/Sequencer.lean ====
section
/-! DEFINITION. The step rules of the transaction sequencer, one definition per state (42_transaction_sequencer.md rules
R110 to R120), and the block step that they make up. -/

namespace Sys2Proof.Machine

/-- IDLE: a presented command is accepted, whatever its `OP` (42_transaction_sequencer.md rule R110). -/
def idleRegs (p : PortIn) (r : Regs) : Regs := if p.cmdValid then acceptCommand p.cmdWord r else r

/-- CHECK: the transport-open precondition, then the rw check (42_transaction_sequencer.md rule R111). -/
def checkRegs (p : PortIn) (r : Regs) : Regs :=
  if !p.tpOpen then raiseError .configuration .closed r
  else if legalOp r.cw then goto .build r
  else raiseError .configuration .badRw r

/-- BUILD: the command registers, the frame, returnLength and a cleared accumulator, all from `CW`
(42_transaction_sequencer.md rule R112). The raise of `Pack` (40_frame_encoder.md rule R85) is not reached: CHECK has
rejected an illegal `OP` (log entry 7). -/
def buildRegs (r : Regs) : Regs :=
  let c := operandsOf r.cw
  match pack c.rw c.addr c.len c.data with
  | none => raiseError .configuration .badRw r
  | some f =>
    { r with
      cmd := c
      fb := storeFrame f r.fb
      fbLen := BitVec.ofNat 4 f.length
      retLen := returnLength c.rw c.len
      acc := 0
      rxCount := 0#16
      seq := .send }

/-- SEND: `tp_wr_err` wins over `tp_wr_ack`; without an answer the block waits (42_transaction_sequencer.md rule R114,
20_memory.md rule R52). -/
def sendRegs (p : PortIn) (r : Regs) : Regs :=
  if p.tpWrErr then raiseError .transport .none r
  else if p.tpWrAck then goto .recv r
  else r

/-- The end of a RECV step: `tp_rd_done` ends the read (42_transaction_sequencer.md rule R115). -/
def endReadRegs (p : PortIn) (r : Regs) : Regs := if p.tpRdDone then goto .parse r else r

/-- Whether RECV absorbs the byte offered in this step; a byte offered with `RX_COUNT = RET_LEN` is dropped
(42_transaction_sequencer.md rule R115, 20_memory.md rule R55). -/
def absorbs (p : PortIn) (r : Regs) : Bool := p.tpRxValid && decide (r.rxCount.toNat < r.retLen.toNat)

/-- RECV: an offered byte is absorbed before the read ends (42_transaction_sequencer.md rule R115). A build whose
accumulator cannot hold one more byte exactly is refused (41_response_parser.md rule R103). -/
def recvRegs (accBits : Nat) (p : PortIn) (r : Regs) : Host.Outcome Regs Fault Refusal :=
  if absorbs p r then
    if r.rxCount.toNat + 1 ≤ accumulatorBytes accBits then .next (endReadRegs p (absorbByte p.tpRxByte r))
    else .refused .responseExceedsAccumulator
  else .next (endReadRegs p r)

/-- PARSE (42_transaction_sequencer.md rule R116). -/
def parseRegs (r : Regs) : Regs :=
  { r with pRecvValid := recvValidFlag r, pRbf := readbackFailedFlag r, seq := .compare }

/-- The result registers as COMPARE writes them (42_transaction_sequencer.md rule R118). -/
def resultOf (r : Regs) : Result where
  valid := true
  rw := r.cmd.rw
  addr := r.cmd.addr
  len := r.cmd.len
  data := r.cmd.data
  expValid := r.cmd.expValid
  exp := r.cmd.exp
  recvValid := r.pRecvValid
  received := if r.pRecvValid then r.acc else 0
  readbackFailed := r.pRbf
  mismatch := mismatchFlag r

/-- COMPARE: the comparison and, in the same step, the result write (42_transaction_sequencer.md rules R117 and R118). -/
def compareRegs (r : Regs) : Regs := { r with pMismatch := mismatchFlag r, res := resultOf r, seq := .done }

/-- DONE: no register but `STATE` is written (42_transaction_sequencer.md rule R119). -/
def doneRegs (r : Regs) : Regs := goto .idle r

/-- The registers after one block step: `rst` overrides every state (70_reset_and_hazards.md rule R171); otherwise the
step rule of the current state (42_transaction_sequencer.md rule R123). -/
def nextRegs (accBits : Nat) (p : PortIn) (r : Regs) : Host.Outcome Regs Fault Refusal :=
  if p.rst then .next .reset
  else
    match r.seq with
    | .idle => .next (idleRegs p r)
    | .check => .next (checkRegs p r)
    | .build => .next (buildRegs r)
    | .send => .next (sendRegs p r)
    | .recv => recvRegs accBits p r
    | .parse => .next (parseRegs r)
    | .compare => .next (compareRegs r)
    | .done => .next (doneRegs r)
    | .error => .next (leaveError r)

/-- The events of one block step, from the registers before it (`r`) and after it (`r'`). A request is recorded where its
state is entered, its end where an answer ends it; a reset abandons a request without an end (70_reset_and_hazards.md rule
R172). The report, the close and the command's end follow the outputs of the DONE and ERROR steps (10_state.md rules R32
to R34, log entries 3 and 6). -/
def emitted (p : PortIn) (r r' : Regs) : List Event :=
  match r.seq with
  | .idle | .check | .parse | .compare => []
  | .build => if r'.seq = .send then [.writeRequested (presentedFrame r')] else []
  | .send =>
    if p.rst then []
    else if p.tpWrErr then [.writeEnded false]
    else if p.tpWrAck then [.writeEnded true, .readRequested r'.retLen]
    else []
  | .recv => if p.rst then [] else if p.tpRdDone then [.readEnded] else []
  | .done => [.reported (outputs p.rst r).rpt, .commandEnded]
  | .error => (if (outputs p.rst r).tpClose then [.transportClosed] else []) ++ [.commandEnded]

/-- One block step in which the environment presents `p` (00_scope.md rule R10). -/
def stepWith (p : PortIn) (s : State) : Host.Outcome State Fault Refusal :=
  match nextRegs s.accBits p s.regs with
  | .next r => .next { s with regs := r, journal := s.journal ++ emitted p s.regs r }
  | .fault e => .fault e
  | .refused e => .refused e

/-- One block step with the inputs that the state's environment presents next. -/
def blockStep (s : State) : Host.Outcome State Fault Refusal := stepWith (nextPorts s) (dropPorts s)

/-- `n` block steps, one after another, stopping at a step that has no next state. -/
def blockSteps : Nat → State → Host.Outcome State Fault Refusal
  | 0, s => .next s
  | n + 1, s =>
    match blockStep s with
    | .next t => blockSteps n t
    | .fault e => .fault e
    | .refused e => .refused e

/-- Block steps until the block is back in IDLE, at most `fuel` of them (42_transaction_sequencer.md rule R106). -/
def runUntilIdle : Nat → State → Host.Outcome State Fault Refusal
  | 0, s => .next s
  | fuel + 1, s =>
    if s.regs.seq = .idle then .next s
    else
      match blockStep s with
      | .next t => runUntilIdle fuel t
      | .fault e => .fault e
      | .refused e => .refused e

/-- The inputs of a step in which the host presents the command word `w`. -/
def presenting (w : CmdWord) (p : PortIn) : PortIn := { p with cmdValid := true, cmdWord := w }

/-- Running the command `w`: one block step in which the host presents it and, where IDLE has accepted it, the block
steps that follow until the block is back in IDLE (42_transaction_sequencer.md rule R109) or the port script is used up
(then the block is left where it waits, and the model's next steps go on from there: log entry 2). A busy block does not
accept it (42_transaction_sequencer.md rule R122) and makes its one step. -/
def runCommand (w : CmdWord) (s : State) : Host.Outcome State Fault Refusal :=
  match stepWith (presenting w (nextPorts s)) (dropPorts s) with
  | .next t => if s.regs.seq = .idle then runUntilIdle t.ports.length t else .next t
  | .fault e => .fault e
  | .refused e => .refused e

end Sys2Proof.Machine
end

