-- ==== Sys2Proof/Machine/Commands.lean ====
section
/-! DEFINITION. The meanings of READ and WRITE, and what the block does with an illegal `OP`. Both commands follow the
same path, "identical shape for both, differing by `rw`" (42_transaction_sequencer.md rule R106); where they differ (the
frame, returnLength, the default of `expected`, the report) the step rules read `OP` in `CW`. -/

namespace Sys2Proof.Machine

/-- READ: the whole transaction (42_transaction_sequencer.md rules R107 and R109). -/
def execRead (f : CmdFields) (s : State) : Host.Outcome State Fault Refusal := runCommand (encode (.read f)) s

/-- WRITE: the whole transaction (42_transaction_sequencer.md rules R108 and R109). -/
def execWrite (f : CmdFields) (s : State) : Host.Outcome State Fault Refusal := runCommand (encode (.write f)) s

/-- A word with an illegal `OP` is accepted like any other and ends in ERROR (30_encoding.md rule R66, 60_exceptions.md
rules R142 and R143). -/
def execIllegalOp (w : CmdWord) (s : State) : Host.Outcome State Fault Refusal := runCommand w s

end Sys2Proof.Machine
end

