-- ==== Sys2Proof/Machine/Fetch.lean ====
section
/-! DEFINITION. The block fetches no instructions (10_state.md rule R20): a command comes from the command port. How the
next step finds one, and how one is placed there. -/

namespace Sys2Proof.Machine

/-- The command word that an idle block accepts in the next block step, if there is one: `cmd_valid = 1`, `STATE = IDLE`
and no reset (10_state.md rule R31, 70_reset_and_hazards.md rule R171). -/
def fetchedWord (s : State) : Option CmdWord :=
  if s.regs.seq = .idle ∧ (nextPorts s).cmdValid ∧ ¬ (nextPorts s).rst then some (nextPorts s).cmdWord else none

/-- The inputs of a step in which nothing is presented. -/
def quietPorts : PortIn where
  rst := false
  cmdValid := false
  cmdWord := 0#128
  tpOpen := false
  tpWrAck := false
  tpWrErr := false
  tpRxValid := false
  tpRxByte := 0#8
  tpRdDone := false

/-- The inputs of a step in which the host presents the command word `w`. -/
def commandPorts (w : CmdWord) : PortIn := { quietPorts with cmdValid := true, cmdWord := w }

/-- The inputs of a step of a transport that is open, acknowledges a write and ends a read. -/
def answeringPorts : PortIn := { quietPorts with tpOpen := true, tpWrAck := true, tpRdDone := true }

/-- `s` with the command word `w` on the command port of an idle block, and a transport that answers at once for the
seven steps a completed transaction then takes (CHECK, BUILD, SEND, RECV, PARSE, COMPARE, DONE), so that the next step
runs exactly that command to its end (DESIGN CHOICE, log entry 10). -/
def placeCommand (w : CmdWord) (s : State) : State :=
  { s with
    regs := { s.regs with seq := .idle }
    ports := commandPorts w :: (List.replicate 7 answeringPorts ++ s.ports) }

end Sys2Proof.Machine
end

