-- ==== Sys2Proof/Machine/Step.lean ====
section
/-! DEFINITION. One step of the machine. -/

namespace Sys2Proof.Machine

/-- One step: a command that the host presents to an idle block runs as a whole (`exec`; a word with an illegal `OP` runs
to its error); in every other case the block makes one step of its own (42_transaction_sequencer.md rules R109 and R110,
log entry 2). -/
def step (s : State) : Host.Outcome State Fault Refusal :=
  match fetchedWord s with
  | none => blockStep s
  | some w =>
    match decode w with
    | .ok i => exec i s
    | .error _ => execIllegalOp w s

/-- The state in which the next step accepts and runs the table instruction whose bits are `w` (log entry 10). -/
def State.withFetchWord (s : State) (nbits w : Nat) : State := placeCommand (tableWord nbits w) s

end Sys2Proof.Machine
end

