-- ==== Sys2Proof/Machine/Transport.lean ====
section
/-! DEFINITION. The transport primitives `TpWrite` and `TpRead` read off a port script (20_memory.md rules R50 and R51). -/

namespace Sys2Proof.Machine

/-- `TpWrite(frame)`, one visit to SEND: the result (`true` for `ok`) of the first step that gives an answer, err winning
over ack, and the inputs of the steps after it; `none` where no step answers (20_memory.md rules R51 and R52). -/
def tpWrite : List PortIn → Option (Bool × List PortIn)
  | [] => none
  | p :: ps => if p.tpWrErr then some (false, ps) else if p.tpWrAck then some (true, ps) else tpWrite ps

/-- The byte offered in one step, if `room` more bytes may be absorbed (20_memory.md rules R53 and R55). -/
def offeredByte (room : Nat) (p : PortIn) : List Byte := if p.tpRxValid && decide (0 < room) then [p.tpRxByte] else []

/-- `TpRead(max)`, one visit to RECV: the bytes absorbed up to the step with `tp_rd_done`, in order and at most `max` of
them, and the inputs of the steps after it; `none` where the read never ends (20_memory.md rules R51, R53 and R55). -/
def tpRead : Nat → List PortIn → Option (List Byte × List PortIn)
  | _, [] => none
  | room, p :: ps =>
    if p.tpRdDone then some (offeredByte room p, ps)
    else
      match tpRead (room - (offeredByte room p).length) ps with
      | none => none
      | some (bytes, rest) => some (offeredByte room p ++ bytes, rest)

end Sys2Proof.Machine
end

