-- ==== Sys2Proof/Machine/Transact.lean ====
section
/-! DEFINITION. The transaction function of 42_transaction_sequencer.md rule R109, written apart from the step rules, and
its reading off a port script. -/

namespace Sys2Proof.Machine

/-- The whole effect of one accepted command (42_transaction_sequencer.md rule R109). -/
inductive Transaction where
  /-- `Err`: the class and cause, and the frame that was requested before the error (none before BUILD) -/
  | failed (cls : ErrClass) (cause : CfgCause) (frame : Option (List Byte))
  /-- `Ok`: the frame sent, the number of response bytes asked for, and the TransactionResult -/
  | completed (frame : List Byte) (max : Half) (res : Result)
deriving DecidableEq, Repr

/-- The TransactionResult of a command and its response (42_transaction_sequencer.md rule R109). -/
def transactionResult (c : Command) (s : List Byte) : Result where
  valid := true
  rw := c.rw
  addr := c.addr
  len := c.len
  data := c.data
  expValid := c.expValid
  exp := c.exp
  recvValid := (parseInt s).isSome
  received := (parseInt s).getD 0
  readbackFailed := s.isEmpty
  mismatch :=
    match parseInt s with
    | none => false
    | some v => c.expValid && c.exp.toNat != v

/-- `Transact(cw, open, wr, s)` (42_transaction_sequencer.md rule R109); `wrOk` is the transport's write result. -/
def transact (cw : CmdWord) (tpOpen wrOk : Bool) (s : List Byte) : Transaction :=
  if !tpOpen then .failed .configuration .closed none
  else
    let c := operandsOf cw
    match pack c.rw c.addr c.len c.data with
    | none => .failed .configuration .badRw none
    | some f =>
      if !wrOk then .failed .transport .none (some f)
      else .completed f (returnLength c.rw c.len) (transactionResult c s)

/-- The error class a transaction leaves. -/
def Transaction.errClass : Transaction → ErrClass
  | .failed c _ _ => c
  | .completed _ _ _ => .none

/-- The error cause a transaction leaves. -/
def Transaction.errCause : Transaction → CfgCause
  | .failed _ k _ => k
  | .completed _ _ _ => .none

/-- The result registers after a transaction: `Ok` writes them, `Err` leaves them (42_transaction_sequencer.md rule R109). -/
def Transaction.result (old : Result) : Transaction → Result
  | .failed _ _ _ => old
  | .completed _ _ r => r

/-- What a transaction asks of the transport and tells the sink and the host, in order (42_transaction_sequencer.md rules
R107 to R109, 60_exceptions.md rule R148). -/
def Transaction.events : Transaction → List Event
  | .failed .transport _ f =>
    [.writeRequested (f.getD []), .writeEnded false, .transportClosed, .commandEnded]
  | .failed _ _ _ => [.commandEnded]
  | .completed f max r =>
    [.writeRequested f, .writeEnded true, .readRequested max, .readEnded, .reported (reportOf r), .commandEnded]

/-- The transaction of an accepted command word on the inputs `ports` of the block steps after the accepting one, and the
inputs that are left when the block is back in IDLE; `none` where they end before that. The steps are CHECK, then ERROR; or
CHECK, BUILD, SEND, ERROR; or CHECK, BUILD, SEND, RECV, PARSE, COMPARE, DONE (42_transaction_sequencer.md rules R106 and
R124). -/
def transactOn (cw : CmdWord) (ports : List PortIn) : Option (Transaction × List PortIn) :=
  match ports with
  | [] => none
  | check :: afterCheck =>
    if !check.tpOpen || !legalOp cw then
      match afterCheck with
      | [] => none
      | _ :: rest => some (transact cw check.tpOpen true [], rest)
    else
      match afterCheck with
      | [] => none
      | _ :: sends =>
        match tpWrite sends with
        | none => none
        | some (false, []) => none
        | some (false, _ :: rest) => some (transact cw true false [], rest)
        | some (true, reads) =>
          match tpRead (returnLength (operandsOf cw).rw (operandsOf cw).len).toNat reads with
          | some (s, _ :: _ :: _ :: rest) => some (transact cw true true s, rest)
          | _ => none

end Sys2Proof.Machine
end

