-- ==== Sys2Proof/Safety.lean ====
section
/-! DEFINITION. What claims about the block are stated in: its invariant, the scripts of a whole exchange with the
transport, and when two outcomes differ in the command latch alone. -/

namespace Sys2Proof.Machine

/-- What the rules say of the result registers at every step (10_state.md rule R26, 42_transaction_sequencer.md rules R117
and R130). -/
structure ResultInv (accBits : Nat) (r : Result) : Prop where
  /-- until a transaction has completed every result register holds its reset value (10_state.md rule R26) -/
  untouched : r.valid = false → r = Result.reset
  /-- `R_RW` is READ or WRITE -/
  rwLegal : r.rw = Config.rwRead ∨ r.rw = Config.rwWrite
  /-- a WRITE always has an expected value (42_transaction_sequencer.md rule R108) -/
  writeExpects : r.rw = Config.rwWrite → r.expValid = true
  /-- `R_EXP` is 0 where expected is not set (10_state.md rule R26) -/
  expZero : r.expValid = false → r.exp = 0#32
  /-- the readback failed exactly where no value was received (60_exceptions.md rule R145) -/
  failedIffNoValue : r.valid = true → r.readbackFailed = !r.recvValid
  /-- `R_RECEIVED` is 0 where no value was received (10_state.md rule R26) -/
  receivedZero : r.recvValid = false → r.received = 0
  /-- `R_RECEIVED` fits its register (10_state.md rule R26) -/
  receivedFits : r.received < 2 ^ (8 * accumulatorBytes accBits)
  /-- a mismatch is an expected value, a received value, and their difference (42_transaction_sequencer.md rule R117) -/
  mismatchExact : r.mismatch = (r.expValid && r.recvValid && r.exp.toNat != r.received)

/-- Whether a sequencer state comes after BUILD in its transaction. -/
def afterBuild : SeqState → Bool
  | .send | .recv | .parse | .compare | .done => true
  | .idle | .check | .build | .error => false

/-- What the rules say of the registers at every step. -/
structure RegsInv (accBits : Nat) (r : Regs) : Prop where
  /-- `RX_COUNT <= RET_LEN` (20_memory.md rule R54) -/
  countBound : r.rxCount.toNat ≤ r.retLen.toNat
  /-- the bytes absorbed fit the accumulator (41_response_parser.md rule R103) -/
  countFits : r.rxCount.toNat ≤ accumulatorBytes accBits
  /-- after `k` bytes `ACC < 2^(8k)` (41_response_parser.md rule R97) -/
  accRange : r.acc < 2 ^ (8 * r.rxCount.toNat)
  /-- `E_CAUSE` is 0 whenever `E_CLASS` is not 1, and only then (10_state.md rule R25, 60_exceptions.md rule R148) -/
  causeOfConfiguration : r.eClass = .configuration ↔ r.eCause ≠ .none
  /-- ERROR is entered with a class -/
  errorHasClass : r.seq = .error → r.eClass ≠ .none
  /-- a class stands only in ERROR and in the IDLE after it (60_exceptions.md rule R151) -/
  classAtEnd : r.eClass ≠ .none → r.seq = .error ∨ r.seq = .idle
  /-- BUILD is entered with a legal `OP` only (42_transaction_sequencer.md rule R111) -/
  buildLegal : r.seq = .build → legalOp r.cw = true
  /-- from BUILD on, the command registers are those of the latched word (42_transaction_sequencer.md rule R129) -/
  commandOfLatch : afterBuild r.seq = true → legalOp r.cw = true ∧ r.cmd = operandsOf r.cw
  /-- the frame buffer and `RET_LEN` are those of the command registers, or nothing has been built since reset
  (42_transaction_sequencer.md rule R112) -/
  frameOfCommand :
    (r.cmd = Command.reset ∧ r.fbLen = 0#4 ∧ r.retLen = 0#16 ∧ afterBuild r.seq = false) ∨
    (pack r.cmd.rw r.cmd.addr r.cmd.len r.cmd.data = some (presentedFrame r) ∧
      r.retLen = returnLength r.cmd.rw r.cmd.len)
  /-- nothing is received before RECV (42_transaction_sequencer.md rule R112) -/
  sendCleared : r.seq = .send → r.acc = 0 ∧ r.rxCount = 0#16
  /-- PARSE has set the working flags (42_transaction_sequencer.md rule R116) -/
  parsed : r.seq = .compare → r.pRecvValid = (r.rxCount != 0#16) ∧ r.pRbf = (r.rxCount == 0#16)
  /-- in DONE the result registers hold what COMPARE recorded (42_transaction_sequencer.md rule R118) -/
  recorded : r.seq = .done → r.res = resultOf r ∧ r.pMismatch = r.res.mismatch
  /-- the result registers -/
  result : ResultInv accBits r.res

/-- The invariant of the machine. -/
def MachineInv (s : State) : Prop := RegsInv s.accBits s.regs

/-- The builds that 00_scope.md rule R9 speaks of: `ACC_BITS >= 32`, a multiple of 8, the default 524280 or smaller. The
UPPER BOUND is a DESIGN CHOICE (log entry 12): 93_implementation_defined.md P1 says "any multiple of 8 from 32 upward", and
the spec leaves open whether a wider build is meant. No meaning and no step asks for this predicate. -/
def ValidBuild (s : State) : Prop := 32 ≤ s.accBits ∧ s.accBits % 8 = 0 ∧ s.accBits ≤ Config.defaultAccBits

/-- No reset comes in the next step or in the rest of the port script. -/
def NoReset (s : State) : Prop := (nextPorts s).rst = false ∧ ∀ p ∈ s.ports, p.rst = false

/-- The inputs of the block steps of one transaction that runs to its end: accept, CHECK, BUILD, the SEND steps that wait
and the one with the answer, the RECV steps and the one with `tp_rd_done`, PARSE, COMPARE and DONE
(42_transaction_sequencer.md rule R124). -/
structure Exchange where
  accept : PortIn
  check : PortIn
  build : PortIn
  waits : List PortIn
  answer : PortIn
  reads : List PortIn
  last : PortIn
  parse : PortIn
  compare : PortIn
  done : PortIn
deriving DecidableEq, Repr

/-- The port script of an exchange. -/
def Exchange.script (x : Exchange) : List PortIn :=
  x.accept :: x.check :: x.build ::
    (x.waits ++ x.answer :: (x.reads ++ [x.last, x.parse, x.compare, x.done]))

/-- The transport gives no answer to a write in this step (20_memory.md rule R52). -/
def noAnswer (p : PortIn) : Bool := !p.tpWrAck && !p.tpWrErr

/-- The exchange is one that completes: no reset, an open transport in CHECK, a write that succeeds in the answering
step, and a read that ends in the last RECV step. -/
def Exchange.completes (x : Exchange) : Bool :=
  x.script.all (fun p => !p.rst) && x.check.tpOpen && x.waits.all noAnswer && x.answer.tpWrAck && !x.answer.tpWrErr &&
    x.reads.all (fun p => !p.tpRdDone) && x.last.tpRdDone

/-- The byte a transport offers in one step, if it offers one. -/
def offered (p : PortIn) : Option Byte := if p.tpRxValid then some p.tpRxByte else none

/-- The response of a read of up to `max` bytes that lasts these steps: the first `max` bytes offered (20_memory.md rules
R53 and R55). -/
def responseIn (max : Half) (ps : List PortIn) : List Byte := (ps.filterMap offered).take max.toNat

/-- The response of an exchange whose command asks for up to `max` bytes. -/
def Exchange.response (x : Exchange) (max : Half) : List Byte := responseIn max (x.reads ++ [x.last])

/-- Two outcomes that agree in everything but the command latch `CW`. -/
def SameButLatch : Host.Outcome State Fault Refusal → Host.Outcome State Fault Refusal → Prop
  | .next t, .next u => u = { t with regs := { t.regs with cw := u.regs.cw } }
  | .refused a, .refused b => a = b
  | _, _ => False

/-- The number of frame writes requested in a list of events. -/
def writesIn (ev : List Event) : Nat :=
  ev.countP fun | .writeRequested _ => true | _ => false

/-- The number of reads requested in a list of events. -/
def readsIn (ev : List Event) : Nat :=
  ev.countP fun | .readRequested _ => true | _ => false

/-- The reports in a list of events, in order. -/
def reportsIn (ev : List Event) : List Report :=
  ev.filterMap fun | .reported r => some r | _ => none

/-- The number of steps with `tp_close = 1` in a list of events. -/
def closesIn (ev : List Event) : Nat := ev.count .transportClosed

/-- The number of steps with `rsp_valid = 1` in a list of events. -/
def endsIn (ev : List Event) : Nat := ev.count .commandEnded

end Sys2Proof.Machine
end

