-- ==== Sys2Proof/WellFormed.lean ====
section
/-! DEFINITION. Which commands follow the host's discipline. The block itself accepts EVERY word and runs every command
with a legal `OP` (30_encoding.md rules R64, R66): no meaning and no step asks for these checks (log entry 9). -/

namespace Sys2Proof

/-- The reserved bits are written as 0 (30_encoding.md rule R64: "A host should write them as 0"). -/
def CmdFields.reservedZero (f : CmdFields) : Bool := f.rsvLo == 0#6 && f.rsvHi == 0#16

/-- `LEN` is 0 where `LEN_VALID` is 0 (30_encoding.md rule R74, `len=` absent). -/
def CmdFields.lenCanonical (f : CmdFields) : Bool := f.lenValid || f.len == 0#16

/-- `EXP` is 0 where `EXP_VALID` is 0 (30_encoding.md rule R74, `exp=` absent). -/
def CmdFields.expCanonical (f : CmdFields) : Bool := f.expValid || f.exp == 0#32

/-- A command that the assembler forms `READ` and `WRITE` of 30_encoding.md rule R74 can write: its reserved bits are 0,
a field that is not given is 0, and a READ's `DATA` is 0. -/
def Instr.wellFormed : Instr → Bool
  | .read f => f.reservedZero && f.lenCanonical && f.expCanonical && f.data == 0#32
  | .write f => f.reservedZero && f.lenCanonical && f.expCanonical

end Sys2Proof
end

