-- ==== Sys2Proof/Certificates/Slice0/Obligations.lean ====
section
/-! DEFINITION. The statements about the block, from the numbered rules of the spec. -/

open Sys2Proof Sys2Proof.Machine

/-! ### Encoding -/

/-- Decoding the encoding of an instruction gives it back, with every field at every value (30_encoding.md rules R61, R65
and R76). -/
def Obligations.DecodeOfEncodeIsTheInstruction : Prop := ∀ i : Instr, decode (encode i) = .ok i

/-- Encoding what a word decodes to gives the word back, the reserved bits among it (30_encoding.md rules R61 and R76). -/
def Obligations.EncodeOfDecodeIsTheWord : Prop := ∀ (w : CmdWord) (i : Instr), decode w = .ok i → encode i = w

/-- Bits [7:0] alone select the instruction: 0x00 READ, 0x01 WRITE, every other value is illegal (30_encoding.md rules R65,
R66 and R76). -/
def Obligations.OpByteSelectsTheInstruction : Prop :=
  ∀ w : CmdWord,
    (w.extractLsb' 0 8 = 0x00#8 → decode w = .ok (.read (fieldsOf w))) ∧
    (w.extractLsb' 0 8 = 0x01#8 → decode w = .ok (.write (fieldsOf w))) ∧
    (w.extractLsb' 0 8 ≠ 0x00#8 → w.extractLsb' 0 8 ≠ 0x01#8 →
      decode w = .error (.illegalOp (w.extractLsb' 0 8)))

/-- Words that 95_test_vectors.md writes out decode to the commands they stand for: S7, S9, T4, S8, T8, and T10 to none. -/
def Obligations.WordsOfTheSpecDecodeAsWritten : Prop :=
  decode 0x00000000000000000000000010000000#128 =
    .ok (.read { rsvHi := 0, exp := 0, data := 0, len := 0, addr := 0x1000, rsvLo := 0, expValid := false, lenValid := false }) ∧
  decode 0x00000000001000000000000000100200#128 =
    .ok (.read { rsvHi := 0, exp := 0x10, data := 0, len := 0, addr := 0x10, rsvLo := 0, expValid := true, lenValid := false }) ∧
  decode 0x00000000002A00000000000800300300#128 =
    .ok (.read { rsvHi := 0, exp := 0x2A, data := 0, len := 8, addr := 0x30, rsvLo := 0, expValid := true, lenValid := true }) ∧
  decode 0x000000000000DEADBEEF000020000001#128 =
    .ok (.write { rsvHi := 0, exp := 0, data := 0xDEADBEEF, len := 0, addr := 0x2000, rsvLo := 0, expValid := false, lenValid := false }) ∧
  decode 0x0000000000000000CAFE000200010101#128 =
    .ok (.write { rsvHi := 0, exp := 0, data := 0xCAFE, len := 2, addr := 1, rsvLo := 0, expValid := false, lenValid := true }) ∧
  decode 0x00000000000000000000000010000002#128 = .error (.illegalOp 2)

/-- The well-formed commands are exactly those the forms `READ` and `WRITE` of the command syntax write (30_encoding.md rule
R74). That well-formedness means this is the model's choice (log entry 9). -/
def Obligations.WellFormedIsWhatTheAssemblerWrites : Prop :=
  ∀ i : Instr, i.wellFormed = true ↔ ∃ a : Asm, (∀ w, a ≠ .raw w) ∧ assemble a = encode i

/-- `length` defaults to 4 and `expected` to nothing for a READ and to 0x32 for a WRITE; a given field, 0 included, is
taken as it is (30_encoding.md rules R62 and R63). -/
def Obligations.UnspecifiedOperandsTakeTheirDefaults : Prop :=
  ∀ f : CmdFields,
    (operandsOf (encode (.read f))).len = (if f.lenValid then f.len else 4#16) ∧
    (operandsOf (encode (.write f))).len = (if f.lenValid then f.len else 4#16) ∧
    (operandsOf (encode (.read f))).expValid = f.expValid ∧
    (f.expValid = true → (operandsOf (encode (.read f))).exp = f.exp) ∧
    (operandsOf (encode (.write f))).expValid = true ∧
    (operandsOf (encode (.write f))).exp = (if f.expValid then f.exp else 0x32#32)

/-- Two words with equal operands run alike from every state: the outcomes differ in the latch `CW` at most. So the
reserved bits, `LEN` without `LEN_VALID` and `EXP` without `EXP_VALID` change nothing (30_encoding.md rules R64 and
R75). -/
def Obligations.EqualOperandsRunAlike : Prop :=
  ∀ (w w' : CmdWord) (s : State), operandsOf w = operandsOf w' → SameButLatch (runCommand w s) (runCommand w' s)

/-- Fields that are ignored do not reach the operands: the reserved bits, `LEN` where `LEN_VALID = 0`, `EXP` where
`EXP_VALID = 0` (30_encoding.md rule R64). -/
def Obligations.IgnoredFieldsAreNotOperands : Prop :=
  ∀ (op : Byte) (f : CmdFields) (hi : BitVec 16) (lo : BitVec 6) (l : Half) (e : Word),
    operandsOf (layOut op { f with rsvHi := hi, rsvLo := lo }) = operandsOf (layOut op f) ∧
    operandsOf (layOut op { f with lenValid := false, len := l }) = operandsOf (layOut op { f with lenValid := false }) ∧
    operandsOf (layOut op { f with expValid := false, exp := e }) = operandsOf (layOut op { f with expValid := false })

/-- The equivalent forms of the command syntax build the same command (30_encoding.md rule R75). With
`EqualOperandsRunAlike` they send the same frame and give the same result and report. -/
def Obligations.EquivalentFormsBuildOneCommand : Prop :=
  ∀ (a : Half) (d : Word) (l : Option Half) (e : Option Word),
    operandsOf (assemble (.read a none e)) = operandsOf (assemble (.read a (some 4#16) e)) ∧
    operandsOf (assemble (.write a d none e)) = operandsOf (assemble (.write a d (some 4#16) e)) ∧
    operandsOf (assemble (.write a d l none)) = operandsOf (assemble (.write a d l (some 0x32#32)))

/-! ### The frame encoder -/

/-- The read frame, byte by byte (30_encoding.md rule R67). -/
def Obligations.ReadFrameBytes : Prop :=
  ∀ address length : Half,
    packRead address length =
      [0x31#8, 0xCE#8, 0x00#8, address.extractLsb' 8 8, address.extractLsb' 0 8, length.extractLsb' 8 8,
        length.extractLsb' 0 8]

/-- The write frame, byte by byte (30_encoding.md rule R68). -/
def Obligations.WriteFrameBytes : Prop :=
  ∀ (address length : Half) (data : Word),
    packWrite address length data =
      [0x31#8, 0xCE#8, 0x01#8, address.extractLsb' 8 8, address.extractLsb' 0 8, length.extractLsb' 8 8,
        length.extractLsb' 0 8, data.extractLsb' 24 8, data.extractLsb' 16 8, data.extractLsb' 8 8, data.extractLsb' 0 8]

/-- The check byte is the bitwise complement of the ID, and 0xCE for the device ID (40_frame_encoder.md rule R82). -/
def Obligations.CheckByteIsTheComplement : Prop :=
  (∀ id : Byte, checkByte id = ~~~id) ∧ checkByte Config.devId = 0xCE#8

/-- `Pack` gives the read frame, the write frame, or no frame, and a BUILD that a run reaches never meets the last
(40_frame_encoder.md rule R85). -/
def Obligations.PackDispatchesOnRw : Prop :=
  ∀ (rw : Byte) (a l : Half) (d : Word),
    (rw = 0x00#8 → pack rw a l d = some (packRead a l)) ∧
    (rw = 0x01#8 → pack rw a l d = some (packWrite a l d)) ∧
    (rw ≠ 0x00#8 → rw ≠ 0x01#8 → pack rw a l d = none) ∧
    (∀ s : State, MachineInv s → s.regs.seq = .build → pack (operandsOf s.regs.cw).rw a l d ≠ none)

/-- A read asks for `length` bytes and a write for 1; a read of 0 bytes is always empty (40_frame_encoder.md rule R86). -/
def Obligations.ReturnLengthOfReadAndWrite : Prop :=
  (∀ l : Half, returnLength 0x00#8 l = l ∧ returnLength 0x01#8 l = 1#16) ∧
  (∀ (p : PortIn) (r : Regs), r.retLen = returnLength 0x00#8 0#16 → absorbs p r = false)

/-- A frame unpacks to the operands it was packed from, so packing is injective (40_frame_encoder.md rule R88). -/
def Obligations.FramesUnpackToTheirOperands : Prop :=
  ∀ (a l : Half) (d : Word),
    unpackAddr (packRead a l) = a.toNat ∧ unpackLen (packRead a l) = l.toNat ∧
    unpackAddr (packWrite a l d) = a.toNat ∧ unpackLen (packWrite a l d) = l.toNat ∧
    unpackData (packWrite a l d) = d.toNat

/-- A frame read as one big-endian integer has its fields at the places of the opcode table's frame patterns
(30_encoding.md rule R69). -/
def Obligations.FramesAsIntegers : Prop :=
  ∀ (a l : Half) (d : Word),
    parseInt (packRead a l) = some (0x31CE00 * 2 ^ 32 + a.toNat * 2 ^ 16 + l.toNat) ∧
    parseInt (packWrite a l d) = some (0x31CE01 * 2 ^ 64 + a.toNat * 2 ^ 48 + l.toNat * 2 ^ 32 + d.toNat)

/-! ### The response parser -/

/-- `ParseInt` gives no value for the empty sequence and otherwise the exact big-endian sum, whatever the number of bytes
(41_response_parser.md rule R96). -/
def Obligations.ParseIntIsTheBigEndianSum : Prop :=
  parseInt [] = none ∧
  ∀ s : List Byte, s ≠ [] →
    parseInt s = some (∑ i ∈ Finset.range s.length, (s.getD i 0#8).toNat * 256 ^ (s.length - 1 - i))

/-- A non-empty response of `n` bytes gives a value below `2^(8n)` (41_response_parser.md rule R100). -/
def Obligations.ParseIntRange : Prop :=
  ∀ s : List Byte, s ≠ [] → ∃ v, parseInt s = some v ∧ v < 2 ^ (8 * s.length)

/-- Any number of leading zero bytes adds nothing, but zero bytes are a value where no byte is none (41_response_parser.md
rules R99 and R101). -/
def Obligations.LeadingZerosAddNothing : Prop :=
  (∀ (n : Nat) (s : List Byte), s ≠ [] → parseInt (List.replicate n 0#8 ++ s) = parseInt s) ∧
  (∀ n : Nat, parseInt (List.replicate (n + 1) 0#8) = some 0) ∧
  parseInt [] = none

/-- One visit to RECV, however long: at its end `RX_COUNT` is the number of bytes absorbed and `ACC` their value, and the
response is none exactly where `RX_COUNT = 0` (41_response_parser.md rule R98). The inputs stand in the state's port
script (the model's choice, log entry 1). -/
def Obligations.RecvRealisesParseInt : Prop :=
  ∀ (s : State) (reads : List PortIn) (last : PortIn) (rest : List PortIn),
    s.regs.seq = .recv → s.regs.acc = 0 → s.regs.rxCount = 0#16 → s.ports = reads ++ last :: rest →
    (∀ p ∈ reads, p.rst = false ∧ p.tpRdDone = false) → last.rst = false → last.tpRdDone = true →
    (responseIn s.regs.retLen (reads ++ [last])).length ≤ s.accBits / 8 →
    ∃ t, blockSteps (reads.length + 1) s = .next t ∧ t.regs.seq = .parse ∧
      t.regs.rxCount.toNat = (responseIn s.regs.retLen (reads ++ [last])).length ∧
      parseInt (responseIn s.regs.retLen (reads ++ [last])) =
        (if t.regs.rxCount = 0#16 then none else some t.regs.acc)

/-! ### The step rules -/

/-- IDLE: `cmd_ready = 1`, a presented command is accepted whatever its `OP`, and nothing else leaves IDLE
(42_transaction_sequencer.md rule R110). -/
def Obligations.IdleAcceptsAPresentedCommand : Prop :=
  ∀ (n : Nat) (p : PortIn) (r : Regs), r.seq = .idle → p.rst = false →
    (outputs p.rst r).cmdReady = true ∧
    (p.cmdValid = true →
      nextRegs n p r = .next { r with cw := p.cmdWord, eClass := .none, eCause := .none, seq := .check }) ∧
    (p.cmdValid = false → nextRegs n p r = .next r)

/-- CHECK: CLOSED before BAD_RW before BUILD, and no transport request (42_transaction_sequencer.md rule R111). -/
def Obligations.CheckRejectsBeforeAnyIO : Prop :=
  ∀ (n : Nat) (p : PortIn) (r : Regs), r.seq = .check → p.rst = false →
    (p.tpOpen = false →
      nextRegs n p r = .next { r with eClass := .configuration, eCause := .closed, seq := .error }) ∧
    (p.tpOpen = true → r.cw.extractLsb' 0 8 ≠ 0x00#8 → r.cw.extractLsb' 0 8 ≠ 0x01#8 →
      nextRegs n p r = .next { r with eClass := .configuration, eCause := .badRw, seq := .error }) ∧
    (p.tpOpen = true → r.cw.extractLsb' 0 8 = 0x00#8 ∨ r.cw.extractLsb' 0 8 = 0x01#8 →
      nextRegs n p r = .next { r with seq := .build }) ∧
    (outputs p.rst r).tpWrReq = false ∧ (outputs p.rst r).tpRdReq = false ∧ (outputs p.rst r).tpClose = false

/-- BUILD: what it writes for a READ and for a WRITE, everything taken from `CW` (42_transaction_sequencer.md rule R112).
A read frame leaves `FB[7..10]` unchanged. -/
def Obligations.BuildWritesCommandAndFrame : Prop :=
  ∀ (n : Nat) (p : PortIn) (r : Regs), r.seq = .build → p.rst = false →
    (r.cw.extractLsb' 0 8 = 0x00#8 →
      nextRegs n p r = .next
        { r with
          cmd :=
            { rw := 0x00#8
              addr := r.cw.extractLsb' 16 16
              len := if r.cw.getLsbD 8 then r.cw.extractLsb' 32 16 else 4#16
              data := r.cw.extractLsb' 48 32
              expValid := r.cw.getLsbD 9
              exp := if r.cw.getLsbD 9 then r.cw.extractLsb' 80 32 else 0#32 }
          fb :=
            { r.fb with
              b0 := 0x31#8
              b1 := 0xCE#8
              b2 := 0x00#8
              b3 := r.cw.extractLsb' 24 8
              b4 := r.cw.extractLsb' 16 8
              b5 := (if r.cw.getLsbD 8 then r.cw.extractLsb' 32 16 else 4#16).extractLsb' 8 8
              b6 := (if r.cw.getLsbD 8 then r.cw.extractLsb' 32 16 else 4#16).extractLsb' 0 8 }
          fbLen := 7#4
          retLen := if r.cw.getLsbD 8 then r.cw.extractLsb' 32 16 else 4#16
          acc := 0
          rxCount := 0#16
          seq := .send }) ∧
    (r.cw.extractLsb' 0 8 = 0x01#8 →
      nextRegs n p r = .next
        { r with
          cmd :=
            { rw := 0x01#8
              addr := r.cw.extractLsb' 16 16
              len := if r.cw.getLsbD 8 then r.cw.extractLsb' 32 16 else 4#16
              data := r.cw.extractLsb' 48 32
              expValid := true
              exp := if r.cw.getLsbD 9 then r.cw.extractLsb' 80 32 else 0x32#32 }
          fb :=
            { b0 := 0x31#8
              b1 := 0xCE#8
              b2 := 0x01#8
              b3 := r.cw.extractLsb' 24 8
              b4 := r.cw.extractLsb' 16 8
              b5 := (if r.cw.getLsbD 8 then r.cw.extractLsb' 32 16 else 4#16).extractLsb' 8 8
              b6 := (if r.cw.getLsbD 8 then r.cw.extractLsb' 32 16 else 4#16).extractLsb' 0 8
              b7 := r.cw.extractLsb' 72 8
              b8 := r.cw.extractLsb' 64 8
              b9 := r.cw.extractLsb' 56 8
              b10 := r.cw.extractLsb' 48 8 }
          fbLen := 11#4
          retLen := 1#16
          acc := 0
          rxCount := 0#16
          seq := .send })

/-- SEND: the frame is presented and does not change during the visit, and the request stands until the transport answers
(42_transaction_sequencer.md rule R113). err raises TransportError, whose ERROR state closes the transport and ends the
command; err wins over ack, ack starts the read, and without an answer the block waits (rule R114). -/
def Obligations.SendWaitsForTheTransport : Prop :=
  ∀ (n : Nat) (p : PortIn) (r : Regs), r.seq = .send → p.rst = false →
    ((outputs p.rst r).tpWrReq = true ∧ (outputs p.rst r).tpWrLen = r.fbLen ∧ (outputs p.rst r).tpWrByte = r.fb ∧
      presentedFrame r =
        [r.fb.b0, r.fb.b1, r.fb.b2, r.fb.b3, r.fb.b4, r.fb.b5, r.fb.b6, r.fb.b7, r.fb.b8, r.fb.b9, r.fb.b10].take
          r.fbLen.toNat ∧
      (outputs p.rst r).tpClose = false) ∧
    (p.tpWrErr = true →
      nextRegs n p r = .next { r with eClass := .transport, eCause := .none, seq := .error } ∧
      (outputs false { r with eClass := .transport, eCause := .none, seq := .error }).tpClose = true ∧
      (outputs false { r with eClass := .transport, eCause := .none, seq := .error }).rspValid = true) ∧
    (p.tpWrErr = false → p.tpWrAck = true → nextRegs n p r = .next { r with seq := .recv }) ∧
    (p.tpWrErr = false → p.tpWrAck = false → nextRegs n p r = .next r) ∧
    (∀ r', nextRegs n p r = .next r' →
      r'.fb = r.fb ∧ r'.fbLen = r.fbLen ∧
      ((outputs false r').tpWrReq = true ↔ p.tpWrErr = false ∧ p.tpWrAck = false))

/-- RECV in every build (`ACC_BITS = n`) that holds one more byte, the default build among them: an offered byte is absorbed
while `RX_COUNT < RET_LEN` and dropped otherwise, and `tp_rd_done` then ends the read (42_transaction_sequencer.md rule
R115). Where the build does not hold it, see `SmallAccumulatorIsRefusedNotTruncated`. -/
def Obligations.RecvAbsorbsOfferedBytes : Prop :=
  ∀ (n : Nat) (p : PortIn) (r : Regs), r.seq = .recv → p.rst = false →
    ((outputs p.rst r).tpRdReq = true ∧ (outputs p.rst r).tpRdMax = r.retLen) ∧
    (p.tpRxValid = true → r.rxCount.toNat < r.retLen.toNat → r.rxCount.toNat + 1 ≤ n / 8 →
      nextRegs n p r = .next
        { r with
          acc := r.acc * 256 + p.tpRxByte.toNat
          rxCount := BitVec.ofNat 16 (r.rxCount.toNat + 1)
          seq := if p.tpRdDone then .parse else .recv }) ∧
    (p.tpRxValid = false ∨ r.retLen.toNat ≤ r.rxCount.toNat →
      nextRegs n p r = .next { r with seq := if p.tpRdDone then .parse else .recv }) ∧
    (r.rxCount.toNat < r.retLen.toNat → r.rxCount.toNat + 1 ≤ 524280 / 8)

/-- PARSE: the two working flags; where a value was received, it is `ACC`, and the next step records it
(42_transaction_sequencer.md rule R116). -/
def Obligations.ParseSetsTheWorkingFlags : Prop :=
  ∀ (n : Nat) (p : PortIn) (r : Regs), r.seq = .parse → p.rst = false →
    (r.rxCount ≠ 0#16 → nextRegs n p r = .next { r with pRecvValid := true, pRbf := false, seq := .compare }) ∧
    (r.rxCount = 0#16 → nextRegs n p r = .next { r with pRecvValid := false, pRbf := true, seq := .compare }) ∧
    (∀ (q : PortIn) (r' : Regs), nextRegs n p r = .next r' → r'.pRecvValid = true → q.rst = false →
      ∃ r'', nextRegs n q r' = .next r'' ∧ r''.res.recvValid = true ∧ r''.res.received = r.acc)

/-- COMPARE: the comparison and the result write, and no step of another state but a reset writes a result register
(42_transaction_sequencer.md rules R117 and R118). -/
def Obligations.CompareRecordsTheResult : Prop :=
  (∀ (n : Nat) (p : PortIn) (r : Regs), r.seq = .compare → p.rst = false →
    ∃ mm : Bool, (mm = true ↔ r.cmd.expValid = true ∧ r.pRecvValid = true ∧ r.cmd.exp.toNat ≠ r.acc) ∧
      nextRegs n p r = .next
        { r with
          pMismatch := mm
          res :=
            { valid := true
              rw := r.cmd.rw
              addr := r.cmd.addr
              len := r.cmd.len
              data := r.cmd.data
              expValid := r.cmd.expValid
              exp := r.cmd.exp
              recvValid := r.pRecvValid
              received := if r.pRecvValid then r.acc else 0
              readbackFailed := r.pRbf
              mismatch := mm }
          seq := .done }) ∧
  (∀ (n : Nat) (p : PortIn) (r r' : Regs), r.seq ≠ .compare → p.rst = false → nextRegs n p r = .next r' →
    r'.res = r.res)

/-- DONE: `rsp_valid`, `rpt_valid`, no `cmd_ready`, no register written, back to IDLE (42_transaction_sequencer.md rule
R119). -/
def Obligations.DoneReportsAndReturnsToIdle : Prop :=
  ∀ (n : Nat) (p : PortIn) (r : Regs), r.seq = .done → p.rst = false →
    (outputs p.rst r).rspValid = true ∧ (outputs p.rst r).rptValid = true ∧ (outputs p.rst r).rpt = reportOf r.res ∧
    (outputs p.rst r).cmdReady = false ∧ nextRegs n p r = .next { r with seq := .idle }

/-- ERROR: `rsp_valid`, `tp_close` exactly for a TransportError, no report, no `cmd_ready`, no register written, back to
IDLE (42_transaction_sequencer.md rule R120). -/
def Obligations.ErrorClosesAndReturnsToIdle : Prop :=
  ∀ (n : Nat) (p : PortIn) (r : Regs), r.seq = .error → p.rst = false →
    (outputs p.rst r).rspValid = true ∧ ((outputs p.rst r).tpClose = true ↔ classCode r.eClass = 2#2) ∧
    (outputs p.rst r).rptValid = false ∧ (outputs p.rst r).cmdReady = false ∧
    nextRegs n p r = .next { r with seq := .idle }

/-- `rst = 1` in any state gives every register its reset value, accepts no command and leaves `STATUS` 0
(70_reset_and_hazards.md rule R171). Every request, report, close and end is gone from the ports in the next step, and a
step that abandons a transaction (or finds the block idle) adds nothing to the journal: a write or a read under way gets no
end, no report, no `rsp_valid`, no close (R172, which the spec marks as derived; the journal is log entry 3). The events of
a DONE or ERROR step with `rst = 1` are log entry 6. -/
def Obligations.ResetClearsEveryRegister : Prop :=
  (∀ (n : Nat) (p : PortIn) (r : Regs), p.rst = true →
    (outputs p.rst r).cmdReady = false ∧
    ∃ z : Regs, nextRegs n p r = .next z ∧ z.seq = .idle ∧ z.cw = 0#128 ∧
      z.cmd = { rw := 0#8, addr := 0#16, len := 0#16, data := 0#32, expValid := false, exp := 0#32 } ∧
      bufferBytes z.fb = List.replicate 11 0#8 ∧ z.fbLen = 0#4 ∧ z.retLen = 0#16 ∧ z.acc = 0 ∧ z.rxCount = 0#16 ∧
      z.pRecvValid = false ∧ z.pRbf = false ∧ z.pMismatch = false ∧ classCode z.eClass = 0#2 ∧ causeCode z.eCause = 0#2 ∧
      z.res =
        { valid := false, rw := 0#8, addr := 0#16, len := 0#16, data := 0#32, expValid := false, exp := 0#32,
          recvValid := false, received := 0, readbackFailed := false, mismatch := false } ∧
      statusWord z = 0#32 ∧
      (∀ rst : Bool, (outputs rst z).tpWrReq = false ∧ (outputs rst z).tpRdReq = false ∧ (outputs rst z).tpClose = false ∧
        (outputs rst z).rptValid = false ∧ (outputs rst z).rspValid = false)) ∧
  (∀ r : Regs, r.seq = .send ∨ r.seq = .recv → ∀ rst : Bool,
    (outputs rst r).tpClose = false ∧ (outputs rst r).rptValid = false ∧ (outputs rst r).rspValid = false) ∧
  (∀ s : State, (nextPorts s).rst = true → s.regs.seq ≠ .done → s.regs.seq ≠ .error →
    ∃ t, step s = .next t ∧ t.regs = Regs.reset ∧ t.journal = s.journal ∧ t.accBits = s.accBits)

/-- The next-state table (42_transaction_sequencer.md rule R123). -/
def Obligations.NextStateTable : Prop :=
  ∀ (n : Nat) (p : PortIn) (r r' : Regs), nextRegs n p r = .next r' →
    (p.rst = true → r'.seq = .idle) ∧
    (p.rst = false →
      (r.seq = .idle → r'.seq = if p.cmdValid then .check else .idle) ∧
      (r.seq = .check → r'.seq = if p.tpOpen && legalOp r.cw then .build else .error) ∧
      (r.seq = .build → legalOp r.cw = true → r'.seq = .send) ∧
      (r.seq = .send → r'.seq = if p.tpWrErr then .error else if p.tpWrAck then .recv else .send) ∧
      (r.seq = .recv → r'.seq = if p.tpRdDone then .parse else .recv) ∧
      (r.seq = .parse → r'.seq = .compare) ∧
      (r.seq = .compare → r'.seq = .done) ∧
      (r.seq = .done ∨ r.seq = .error → r'.seq = .idle))

/-- An input outside the state that uses it is ignored (42_transaction_sequencer.md rule R122, 20_memory.md rule R55). -/
def Obligations.InputsOutsideTheirStateAreIgnored : Prop :=
  ∀ (n : Nat) (p q : PortIn) (r : Regs), p.rst = q.rst →
    (r.seq = .idle → p.cmdValid = q.cmdValid ∧ p.cmdWord = q.cmdWord) →
    (r.seq = .check → p.tpOpen = q.tpOpen) →
    (r.seq = .send → p.tpWrAck = q.tpWrAck ∧ p.tpWrErr = q.tpWrErr) →
    (r.seq = .recv → p.tpRxValid = q.tpRxValid ∧ p.tpRxByte = q.tpRxByte ∧ p.tpRdDone = q.tpRdDone) →
    nextRegs n p r = nextRegs n q r

/-! ### Ports and status -/

/-- `STATUS`, its fields, their codes (rules R15 and R25) and its reset value (10_state.md rule R28). -/
def Obligations.StatusWordFields : Prop :=
  [SeqState.idle, .check, .build, .send, .recv, .parse, .compare, .done, .error].map seqCode =
    [0#4, 1#4, 2#4, 3#4, 4#4, 5#4, 6#4, 7#4, 8#4] ∧
  [ErrClass.none, .configuration, .transport].map classCode = [0#2, 1#2, 2#2] ∧
  [CfgCause.none, .closed, .badRw].map causeCode = [0#2, 1#2, 2#2] ∧
  statusWord Regs.reset = 0#32 ∧
  ∀ r : Regs,
    (∀ rst : Bool, (outputs rst r).status = statusWord r) ∧
    (statusWord r).extractLsb' 0 4 = seqCode r.seq ∧
    ((statusWord r).getLsbD 4 = true ↔ r.seq ≠ .idle) ∧
    (statusWord r).extractLsb' 5 2 = classCode r.eClass ∧
    (statusWord r).extractLsb' 7 2 = causeCode r.eCause ∧
    (statusWord r).getLsbD 9 = r.res.valid ∧
    (statusWord r).getLsbD 10 = r.res.readbackFailed ∧
    (statusWord r).getLsbD 11 = r.res.mismatch ∧
    (statusWord r).getLsbD 12 = r.res.recvValid ∧
    (statusWord r).getLsbD 13 = r.res.expValid ∧
    (statusWord r).extractLsb' 14 18 = 0#18

/-- Every output in every state: the status and result outputs and `rsp_valid` (10_state.md rule R34), and when each
handshake output is 1 and when 0 (rules R31 to R33; `cmd_ready` is 0 with `rst = 1`, 70_reset_and_hazards.md rule R171). A
command is accepted, its word latched, in exactly the steps with `cmd_valid = 1` and `cmd_ready = 1` (R31). The journal says
what the outputs say: a close, a report and an end in the steps whose output is 1, a request where its output rises (the
journal is log entry 3). That the outputs other than `cmd_ready` are so in a step with `rst = 1` too is the model's reading
(log entry 6). -/
def Obligations.StatusAndResultOutputs : Prop :=
  (∀ (rst : Bool) (r : Regs),
    ((outputs rst r).status = statusWord r ∧ (outputs rst r).rRw = r.res.rw ∧ (outputs rst r).rAddr = r.res.addr ∧
      (outputs rst r).rLen = r.res.len ∧ (outputs rst r).rData = r.res.data ∧
      (outputs rst r).rExpValid = r.res.expValid ∧ (outputs rst r).rExp = r.res.exp ∧
      (outputs rst r).rRecvValid = r.res.recvValid ∧ (outputs rst r).rReceived = r.res.received ∧
      (outputs rst r).rMismatch = r.res.mismatch) ∧
    ((outputs rst r).tpWrLen = r.fbLen ∧ (outputs rst r).tpWrByte = r.fb ∧ (outputs rst r).tpRdMax = r.retLen ∧
      (outputs rst r).rpt = reportOf r.res) ∧
    ((outputs rst r).cmdReady = true ↔ r.seq = .idle ∧ rst = false) ∧
    ((outputs rst r).tpWrReq = true ↔ r.seq = .send) ∧
    ((outputs rst r).tpRdReq = true ↔ r.seq = .recv) ∧
    ((outputs rst r).tpClose = true ↔ r.seq = .error ∧ classCode r.eClass = 2#2) ∧
    ((outputs rst r).rptValid = true ↔ r.seq = .done) ∧
    ((outputs rst r).rspValid = true ↔ r.seq = .done ∨ r.seq = .error)) ∧
  (∀ (n : Nat) (p : PortIn) (r r' : Regs), nextRegs n p r = .next r' →
    (r'.seq = .check ↔ p.cmdValid = true ∧ (outputs p.rst r).cmdReady = true) ∧
    (r'.seq = .check → r'.cw = p.cmdWord) ∧
    (Event.transportClosed ∈ emitted p r r' ↔ (outputs p.rst r).tpClose = true) ∧
    (∀ x, Event.reported x ∈ emitted p r r' ↔ (outputs p.rst r).rptValid = true ∧ x = (outputs p.rst r).rpt) ∧
    (Event.commandEnded ∈ emitted p r r' ↔ (outputs p.rst r).rspValid = true) ∧
    (∀ f, Event.writeRequested f ∈ emitted p r r' ↔
      r.seq ≠ .send ∧ (outputs false r').tpWrReq = true ∧ f = presentedFrame r') ∧
    (∀ m, Event.readRequested m ∈ emitted p r r' ↔
      r.seq ≠ .recv ∧ (outputs false r').tpRdReq = true ∧ m = (outputs false r').tpRdMax))

/-- The report that a DONE step carries for a READ and for a WRITE (60_exceptions.md rule R160). -/
def Obligations.ReportCarriesDataOrReceived : Prop :=
  ∀ (p : PortIn) (r : Regs), r.seq = .done → p.rst = false →
    (outputs p.rst r).rptValid = true ∧ (outputs p.rst r).rpt.rw = r.res.rw ∧ (outputs p.rst r).rpt.addr = r.res.addr ∧
    (outputs p.rst r).rpt.expValid = r.res.expValid ∧ (outputs p.rst r).rpt.exp = r.res.exp ∧
    (r.res.rw = 0x01#8 → (outputs p.rst r).rpt.valueValid = true ∧ (outputs p.rst r).rpt.value = r.res.data.toNat) ∧
    (r.res.rw = 0x00#8 →
      (outputs p.rst r).rpt.valueValid = r.res.recvValid ∧ (outputs p.rst r).rpt.value = r.res.received) ∧
    (outputs p.rst r).rpt.mismatch = r.res.mismatch ∧ (outputs p.rst r).rpt.mmReceived = r.res.received

/-! ### The commands -/

/-- READ from an idle block, over any exchange that completes: the final state in full (42_transaction_sequencer.md rule
R107). Everything a READ does not write is as before, `FB[7..10]` among it. That one `exec` runs the whole transaction over
the port script is the model's choice (log entries 1 and 2), and the journal is the model's own (log entry 3). -/
def Obligations.ReadRunsToItsResult : Prop :=
  ∀ (f : CmdFields) (s : State) (x : Exchange) (rest : List PortIn) (len : Half) (resp : List Byte) (mm : Bool)
    (res : Result),
    s.regs.seq = .idle → s.ports = x.script ++ rest → x.completes = true →
    len = (if f.lenValid then f.len else 4#16) → resp = x.response len → resp.length ≤ s.accBits / 8 →
    (mm = true ↔ f.expValid = true ∧ ∃ v, parseInt resp = some v ∧ f.exp.toNat ≠ v) →
    res =
      { valid := true
        rw := 0x00#8
        addr := f.addr
        len := len
        data := f.data
        expValid := f.expValid
        exp := if f.expValid then f.exp else 0#32
        recvValid := (parseInt resp).isSome
        received := (parseInt resp).getD 0
        readbackFailed := decide (resp.length = 0)
        mismatch := mm } →
    exec (.read f) s = .next
      { s with
        regs :=
          { seq := .idle
            cw := encode (.read f)
            cmd :=
              { rw := 0x00#8, addr := f.addr, len := len, data := f.data, expValid := f.expValid,
                exp := if f.expValid then f.exp else 0#32 }
            fb := storeFrame (packRead f.addr len) s.regs.fb
            fbLen := 7#4
            retLen := len
            acc := (parseInt resp).getD 0
            rxCount := BitVec.ofNat 16 resp.length
            pRecvValid := (parseInt resp).isSome
            pRbf := decide (resp.length = 0)
            pMismatch := mm
            eClass := .none
            eCause := .none
            res := res }
        ports := rest
        journal :=
          s.journal ++
            [.writeRequested (packRead f.addr len), .writeEnded true, .readRequested len, .readEnded,
              .reported (reportOf res), .commandEnded] }

/-- WRITE from an idle block, over any exchange that completes: the final state in full (42_transaction_sequencer.md rule
R108). That one `exec` runs the whole transaction over the port script is the model's choice (log entries 1 and 2), and the
journal is the model's own (log entry 3). -/
def Obligations.WriteRunsToItsResult : Prop :=
  ∀ (f : CmdFields) (s : State) (x : Exchange) (rest : List PortIn) (len : Half) (expected : Word) (resp : List Byte)
    (mm : Bool) (res : Result),
    s.regs.seq = .idle → s.ports = x.script ++ rest → x.completes = true →
    len = (if f.lenValid then f.len else 4#16) → expected = (if f.expValid then f.exp else 0x32#32) →
    resp = x.response 1#16 → resp.length ≤ s.accBits / 8 →
    (mm = true ↔ ∃ v, parseInt resp = some v ∧ expected.toNat ≠ v) →
    res =
      { valid := true
        rw := 0x01#8
        addr := f.addr
        len := len
        data := f.data
        expValid := true
        exp := expected
        recvValid := (parseInt resp).isSome
        received := (parseInt resp).getD 0
        readbackFailed := decide (resp.length = 0)
        mismatch := mm } →
    exec (.write f) s = .next
      { s with
        regs :=
          { seq := .idle
            cw := encode (.write f)
            cmd := { rw := 0x01#8, addr := f.addr, len := len, data := f.data, expValid := true, exp := expected }
            fb := storeFrame (packWrite f.addr len f.data) s.regs.fb
            fbLen := 11#4
            retLen := 1#16
            acc := (parseInt resp).getD 0
            rxCount := BitVec.ofNat 16 resp.length
            pRecvValid := (parseInt resp).isSome
            pRbf := decide (resp.length = 0)
            pMismatch := mm
            eClass := .none
            eCause := .none
            res := res }
        ports := rest
        journal :=
          s.journal ++
            [.writeRequested (packWrite f.addr len f.data), .writeEnded true, .readRequested 1#16, .readEnded,
              .reported (reportOf res), .commandEnded] }

/-- READ, WRITE and an illegal `OP` with the transport closed: three block steps, the class and the cause, and no other
register but `CW` (60_exceptions.md rule R142; CLOSED wins over BAD_RW, rule R149). Port script and journal: log entries 1
to 3. -/
def Obligations.ClosedTransportEndsInConfigurationError : Prop :=
  ∀ (s t : State) (accept check error : PortIn) (rest : List PortIn) (w : CmdWord),
    s.regs.seq = .idle → s.ports = accept :: check :: error :: rest →
    accept.rst = false → check.rst = false → error.rst = false → check.tpOpen = false →
    t = { s with
          regs := { s.regs with cw := w, eClass := .configuration, eCause := .closed }
          ports := rest
          journal := s.journal ++ [.commandEnded] } →
    (∀ f, w = encode (.read f) → exec (.read f) s = .next t) ∧
    (∀ f, w = encode (.write f) → exec (.write f) s = .next t) ∧
    (accept.cmdValid = true → accept.cmdWord = w → step s = .next t)

/-- A word with an illegal `OP` on an open transport is accepted and ends in ConfigurationError, cause BAD_RW: no frame, no
result, no register but `CW`, the class and the cause (30_encoding.md rule R66, 60_exceptions.md rule R143). Port script and
journal: log entries 1 to 3. -/
def Obligations.IllegalOpEndsInConfigurationError : Prop :=
  ∀ (s : State) (accept check error : PortIn) (rest : List PortIn),
    s.regs.seq = .idle → s.ports = accept :: check :: error :: rest →
    accept.rst = false → check.rst = false → error.rst = false → check.tpOpen = true → accept.cmdValid = true →
    accept.cmdWord.extractLsb' 0 8 ≠ 0x00#8 → accept.cmdWord.extractLsb' 0 8 ≠ 0x01#8 →
    step s = .next
      { s with
        regs := { s.regs with cw := accept.cmdWord, eClass := .configuration, eCause := .badRw }
        ports := rest
        journal := s.journal ++ [.commandEnded] }

/-- A frame write that fails, after any number of waiting steps, ends READ and WRITE in TransportError: the frame was
requested, the transport is closed once, nothing is read, no result register is written (60_exceptions.md rule R144). Port
script and journal: log entries 1 to 3. -/
def Obligations.FailedWriteEndsInTransportError : Prop :=
  ∀ (i : Instr) (s : State) (accept check build : PortIn) (waits : List PortIn) (answer error : PortIn)
    (rest : List PortIn) (c : Command) (frame : List Byte),
    s.regs.seq = .idle → s.ports = accept :: check :: build :: (waits ++ answer :: error :: rest) →
    (∀ p ∈ s.ports, p.rst = false) → check.tpOpen = true → waits.all noAnswer = true → answer.tpWrErr = true →
    c = operandsOf (encode i) → pack c.rw c.addr c.len c.data = some frame →
    exec i s = .next
      { s with
        regs :=
          { s.regs with
            cw := encode i
            cmd := c
            fb := storeFrame frame s.regs.fb
            fbLen := BitVec.ofNat 4 frame.length
            retLen := returnLength c.rw c.len
            acc := 0
            rxCount := 0#16
            eClass := .transport
            eCause := .none }
        ports := rest
        journal := s.journal ++ [.writeRequested frame, .writeEnded false, .transportClosed, .commandEnded] }

/-- The step rules realise `Transact`: whatever the inputs (without a reset), where they bring the command to its end, the
run ends in IDLE with the error registers, the result registers, the events and the inputs left over that the transaction
function gives (42_transaction_sequencer.md rule R109). Illegal `OP`s included. In every build whose accumulator holds the
longest response the command can get, the default build among them (41_response_parser.md rule R103). -/
def Obligations.StepRulesRealiseTransact : Prop :=
  ∀ (w : CmdWord) (s : State) (accept : PortIn) (ports rest : List PortIn) (tx : Transaction),
    s.regs.seq = .idle → s.ports = accept :: ports → (∀ p ∈ s.ports, p.rst = false) →
    (returnLength (operandsOf w).rw (operandsOf w).len).toNat ≤ s.accBits / 8 → transactOn w ports = some (tx, rest) →
    ∃ t, runCommand w s = .next t ∧ t.regs.seq = .idle ∧ t.ports = rest ∧ t.regs.cw = w ∧
      t.regs.eClass = tx.errClass ∧ t.regs.eCause = tx.errCause ∧ t.regs.res = tx.result s.regs.res ∧
      t.journal = s.journal ++ tx.events

/-- Where the inputs end before the command does, the block is left waiting inside the transaction, with all inputs used
and no end told to the host (42_transaction_sequencer.md rule R121; the state after a script that ends is log entry 2). -/
def Obligations.UnansweredCommandStaysInItsTransaction : Prop :=
  ∀ (w : CmdWord) (s : State) (accept : PortIn) (ports : List PortIn),
    s.regs.seq = .idle → s.ports = accept :: ports → (∀ p ∈ s.ports, p.rst = false) →
    s.accBits = Config.defaultAccBits → transactOn w ports = none →
    ∃ t ev, runCommand w s = .next t ∧ t.regs.seq ≠ .idle ∧ t.ports = [] ∧ t.regs.cw = w ∧
      t.journal = s.journal ++ ev ∧ endsIn ev = 0

/-- A READ of length 0 absorbs nothing, whatever the transport offers: no value, readback failed, no mismatch
(42_transaction_sequencer.md rule R125). -/
def Obligations.ZeroLengthReadIsAReadbackFailure : Prop :=
  ∀ (f : CmdFields) (s : State) (x : Exchange) (rest : List PortIn),
    f.lenValid = true → f.len = 0#16 → s.regs.seq = .idle → s.ports = x.script ++ rest → x.completes = true →
    ∃ t, exec (.read f) s = .next t ∧ t.regs.seq = .idle ∧ t.regs.res.recvValid = false ∧
      t.regs.res.readbackFailed = true ∧ t.regs.res.mismatch = false ∧ t.regs.eClass = .none

/-- The ack of a WRITE: 0x32 matches the default, any other byte mismatches it, and an explicit expected value above 0xFF
mismatches every ack (42_transaction_sequencer.md rule R127). The ack is the first byte the transport offers. -/
def Obligations.WriteAckIsComparedWithExpected : Prop :=
  ∀ (f : CmdFields) (s : State) (x : Exchange) (rest : List PortIn) (ack : Byte) (more : List Byte),
    s.regs.seq = .idle → s.ports = x.script ++ rest → x.completes = true → 8 ≤ s.accBits →
    (x.reads ++ [x.last]).filterMap offered = ack :: more →
    ∃ t, exec (.write f) s = .next t ∧ t.regs.seq = .idle ∧ t.regs.res.recvValid = true ∧
      t.regs.res.received = ack.toNat ∧ t.regs.res.readbackFailed = false ∧
      (f.expValid = false → ((t.regs.res.mismatch = true ↔ ack ≠ 0x32#8) ∧ t.regs.res.exp = 0x32#32)) ∧
      (f.expValid = true → 0xFF < f.exp.toNat → t.regs.res.mismatch = true) ∧
      (f.expValid = true → (t.regs.res.mismatch = true ↔ f.exp.toNat ≠ ack.toNat))

/-- Each accepted command requests at most one frame write and at most one read, whatever the inputs, resets included, and
a read is requested only after a write that succeeded (42_transaction_sequencer.md rule R128, 20_memory.md rule R49). It
ends, is reported and closes the transport at most once each, and a report comes only after the read's end. A command that
its script leaves waiting is followed on, over `n` further block steps or until it is back in IDLE. -/
def Obligations.AtMostOneFrameAndOneRead : Prop :=
  ∀ (w : CmdWord) (s t u : State) (n : Nat), s.regs.seq = .idle → runCommand w s = .next t → runUntilIdle n t = .next u →
    ∃ ev, u.journal = s.journal ++ ev ∧ writesIn ev ≤ 1 ∧ readsIn ev ≤ 1 ∧
      (∀ m before after, ev = before ++ Event.readRequested m :: after → Event.writeEnded true ∈ before) ∧
      endsIn ev ≤ 1 ∧ (reportsIn ev).length ≤ 1 ∧ closesIn ev ≤ 1 ∧
      (∀ r before after, ev = before ++ Event.reported r :: after → Event.readEnded ∈ before)

/-- How a command ended decides everything the host and the sink see: a completed one records its result and is reported
exactly once, an error leaves the result registers and is never reported, and the transport is closed exactly for a
TransportError (60_exceptions.md rule R148, with rules R141, R151 and R161). -/
def Obligations.OutcomeTable : Prop :=
  ∀ (w : CmdWord) (s t : State), s.regs.seq = .idle → NoReset s → runCommand w s = .next t → t.regs.seq = .idle →
    ∃ ev, t.journal = s.journal ++ ev ∧ endsIn ev = 1 ∧
      ((t.regs.eClass = .none ∧ t.regs.eCause = .none ∧ t.regs.res.valid = true ∧ t.regs.res.rw = opField w ∧
          reportsIn ev = [reportOf t.regs.res] ∧ closesIn ev = 0) ∨
       (t.regs.eClass = .configuration ∧ (t.regs.eCause = .closed ∨ t.regs.eCause = .badRw ∧ legalOp w = false) ∧
          t.regs.res = s.regs.res ∧ reportsIn ev = [] ∧ closesIn ev = 0 ∧ writesIn ev = 0) ∨
       (t.regs.eClass = .transport ∧ t.regs.eCause = .none ∧ t.regs.res = s.regs.res ∧ reportsIn ev = [] ∧
          closesIn ev = 1 ∧ readsIn ev = 0))

/-- The frame of READ and WRITE on every path that ends: which registers a command leaves as they were (10_state.md rule
R37), over any inputs without a reset. A READ leaves `FB[7..10]`; an error in CHECK leaves everything but `CW`, `E_*`; an
error in SEND leaves the working flags and the results. -/
def Obligations.CommandFrame : Prop :=
  ∀ (i : Instr) (s t : State), s.regs.seq = .idle → NoReset s → exec i s = .next t → t.regs.seq = .idle →
    t.accBits = s.accBits ∧ t.regs.cw = encode i ∧
    (∀ f, i = .read f →
      t.regs.fb.b7 = s.regs.fb.b7 ∧ t.regs.fb.b8 = s.regs.fb.b8 ∧ t.regs.fb.b9 = s.regs.fb.b9 ∧
        t.regs.fb.b10 = s.regs.fb.b10) ∧
    (t.regs.eClass = .configuration →
      t.regs = { s.regs with cw := t.regs.cw, eClass := t.regs.eClass, eCause := t.regs.eCause }) ∧
    (t.regs.eClass = .transport →
      t.regs.pRecvValid = s.regs.pRecvValid ∧ t.regs.pRbf = s.regs.pRbf ∧ t.regs.pMismatch = s.regs.pMismatch ∧
        t.regs.res = s.regs.res ∧ t.regs.acc = 0 ∧ t.regs.rxCount = 0#16)

/-- An error is precise: the step that enters ERROR changes nothing but the class, the cause and `STATE`
(60_exceptions.md rules R141 and R150). -/
def Obligations.EnteringErrorIsPrecise : Prop :=
  ∀ (n : Nat) (p : PortIn) (r r' : Regs), r.seq ≠ .error → nextRegs n p r = .next r' → r'.seq = .error →
    r' = { r with eClass := r'.eClass, eCause := r'.eCause, seq := .error }

/-- After BUILD, `CW`, the command registers, the frame and `RET_LEN` do not change within the transaction
(42_transaction_sequencer.md rule R129), so the frame SEND presents does not change during the visit (rule R113). -/
def Obligations.CommandHoldsAfterBuild : Prop :=
  ∀ (n : Nat) (p : PortIn) (r r' : Regs), afterBuild r.seq = true → p.rst = false → nextRegs n p r = .next r' →
    r'.cw = r.cw ∧ r'.cmd = r.cmd ∧ r'.fb = r.fb ∧ r'.fbLen = r.fbLen ∧ r'.retLen = r.retLen

/-- A busy block does not accept a presented command: it makes the step it would have made anyway
(42_transaction_sequencer.md rules R122 and R129; that `exec` on a busy block is that step is log entry 2). -/
def Obligations.BusyBlockIgnoresACommand : Prop :=
  ∀ (i : Instr) (s : State), s.regs.seq ≠ .idle → exec i s = blockStep s

/-- There is no cross-transaction state: two idle blocks of one build that see the same inputs run a command alike,
whatever earlier transactions left in them. They emit the same events, end in the same sequencer state with the same error
registers and, where the command completed, with the same result (10_state.md rule R27, 70_reset_and_hazards.md rule
R173). -/
def Obligations.TransactionsShareNoState : Prop :=
  ∀ (w : CmdWord) (s u : State), s.regs.seq = .idle → u.regs.seq = .idle → s.accBits = u.accBits →
    s.ports = u.ports → s.drawn = u.drawn →
    (∀ e, runCommand w s = .refused e → runCommand w u = .refused e) ∧
    (∀ t, runCommand w s = .next t →
      ∃ v ev, runCommand w u = .next v ∧ t.journal = s.journal ++ ev ∧ v.journal = u.journal ++ ev ∧
        v.regs.seq = t.regs.seq ∧ v.ports = t.ports ∧ v.drawn = t.drawn ∧ v.regs.eClass = t.regs.eClass ∧
        v.regs.eCause = t.regs.eCause ∧
        (t.regs.seq = .idle → t.regs.eClass = .none → v.regs.res = t.regs.res))

/-! ### The machine -/

/-- Every step from a state that meets the invariant leads to one that meets it. The invariant holds what 20_memory.md rule
R54, 41_response_parser.md rule R97, 10_state.md rules R25 and R26, and 42_transaction_sequencer.md rules R129 and R130 say
of every step. -/
def Obligations.EveryStepKeepsInv : Prop := ∀ s t : State, MachineInv s → step s = .next t → MachineInv t

/-- The state after reset meets the invariant, is idle and ready and shows `STATUS = 0` (70_reset_and_hazards.md rules R171
and R173). It is the build of the default width, a valid one (00_scope.md rule R9; that the state after reset is the default
build, not another valid one, is the model's choice, log entry 4; that a valid build is no wider than the default is log
entry 12). -/
def Obligations.ResetMeetsInv : Prop :=
  MachineInv State.reset ∧ State.reset.accBits = Config.defaultAccBits ∧ ValidBuild State.reset ∧
    State.reset.regs.seq = .idle ∧ statusWord State.reset.regs = 0#32 ∧ (outputs false State.reset.regs).cmdReady = true

/-- A step of an idle block on whose command port a word stands that decodes to `i` is `exec i`, and any other step is one
block step, but for an illegal word, which runs to its error (42_transaction_sequencer.md rules R109 and R110; that a step
runs the whole command is log entry 2). -/
def Obligations.StepRunsTheDecodedInstruction : Prop :=
  (∀ (i : Instr) (s : State), s.regs.seq = .idle → (nextPorts s).rst = false → (nextPorts s).cmdValid = true →
    decode (nextPorts s).cmdWord = .ok i → step s = exec i s) ∧
  (∀ (e : DecodeError) (s : State), s.regs.seq = .idle → (nextPorts s).rst = false → (nextPorts s).cmdValid = true →
    decode (nextPorts s).cmdWord = .error e → step s = execIllegalOp (nextPorts s).cmdWord s) ∧
  (∀ s : State, s.regs.seq ≠ .idle ∨ (nextPorts s).rst = true ∨ (nextPorts s).cmdValid = false →
    step s = blockStep s)

/-- A step of the machine is a run of block steps, at least one, so whatever it does the step rules do
(42_transaction_sequencer.md rules R109 and R110). -/
def Obligations.StepIsARunOfBlockSteps : Prop := ∀ s : State, ∃ n, 0 < n ∧ blockSteps n s = step s

/-- In the default build no step stops: from every state the machine has a next state (00_scope.md rule R9, 20_memory.md
rule R54, 41_response_parser.md rule R97). -/
def Obligations.DefaultBuildNeverStops : Prop :=
  ∀ s : State, s.accBits = Config.defaultAccBits → ∃ t, step s = .next t

/-- A block step is refused exactly where one more byte would take `RX_COUNT` beyond `ACC_BITS / 8`, and a RECV step that is
not refused leaves the exact value in `ACC` in every build: all of it and the byte, or, with no byte to absorb, all of it.
Nothing is truncated (41_response_parser.md rule R103). -/
def Obligations.SmallAccumulatorIsRefusedNotTruncated : Prop :=
  (∀ (n : Nat) (p : PortIn) (r : Regs),
    nextRegs n p r = .refused .responseExceedsAccumulator ↔
      (p.rst = false ∧ r.seq = .recv ∧ p.tpRxValid = true ∧ r.rxCount.toNat < r.retLen.toNat ∧
        n / 8 < r.rxCount.toNat + 1)) ∧
  (∀ (n : Nat) (p : PortIn) (r r' : Regs), r.seq = .recv → p.rst = false → nextRegs n p r = .next r' →
    r'.acc =
      (if p.tpRxValid = true ∧ r.rxCount.toNat < r.retLen.toNat then r.acc * 256 + p.tpRxByte.toNat else r.acc)) ∧
  (∀ (n : Nat) (p : PortIn) (r r' : Regs), RegsInv n r → r.seq = .recv → p.rst = false → nextRegs n p r = .next r' →
    r'.acc < 2 ^ (8 * (n / 8)))

/-- A transport that never answers keeps the block in SEND, or in RECV, for as long as it does not, and nothing else
changes; in RECV only offered bytes are absorbed (42_transaction_sequencer.md rule R121). -/
def Obligations.UnansweredBlockWaits : Prop :=
  ∀ (s : State) (waits rest : List PortIn), s.ports = waits ++ rest → (∀ p ∈ waits, p.rst = false) →
    (s.regs.seq = .send → (∀ p ∈ waits, p.tpWrAck = false ∧ p.tpWrErr = false) →
      blockSteps waits.length s = .next { s with ports := rest }) ∧
    (s.regs.seq = .recv → (∀ p ∈ waits, p.tpRxValid = false ∧ p.tpRdDone = false) →
      blockSteps waits.length s = .next { s with ports := rest })

/-- Every frame that any step puts on the wire is 7 or 11 bytes long, begins 31 CE and carries the rw byte of its length
(30_encoding.md rules R70 and R71). -/
def Obligations.FramesOnTheWire : Prop :=
  ∀ s t : State, step s = .next t →
    ∃ ev, t.journal = s.journal ++ ev ∧
      ∀ frame, Event.writeRequested frame ∈ ev →
        (frame.length = 7 ∧ frame.take 3 = [0x31#8, 0xCE#8, 0x00#8]) ∨
        (frame.length = 11 ∧ frame.take 3 = [0x31#8, 0xCE#8, 0x01#8])

/-- What no step changes: the build, what is already in the journal, and the inputs not yet taken (the model's own fields,
log entries 1, 3 and 4). -/
def Obligations.StepKeepsTheBuildAndThePast : Prop :=
  ∀ s t : State, step s = .next t →
    t.accBits = s.accBits ∧ s.journal <+: t.journal ∧ t.ports <:+ s.ports ∧
      (s.ports ≠ [] → t.drawn = s.drawn ∧ t.ports.length < s.ports.length)
end

