-- ==== Sys2Proof/Laws/Decode.lean ====
section
/-! SUPPORT. The layout of a command word: each field is read where it is written. -/

namespace Sys2Proof.Laws

open Sys2Proof.Machine

/-- `OP` is read from where it is laid out. -/
theorem opField_layOut (op : Byte) (f : CmdFields) : opField (layOut op f) = op := by
  simp only [opField, layOut]
  rw [BitVec.extractLsb'_append_eq_right]

/-- Every other field is read from where it is laid out. -/
theorem fieldsOf_layOut (op : Byte) (f : CmdFields) : fieldsOf (layOut op f) = f := by
  rcases f with ⟨a, b, c, d, e, g, h, i⟩
  simp only [fieldsOf, layOut, CmdFields.mk.injEq]
  refine ⟨?_, ?_, ?_, ?_, ?_, ?_, ?_, ?_⟩
  any_goals
    (apply BitVec.eq_of_getLsbD_eq; intro k hk
     simp only [BitVec.getLsbD_extractLsb', BitVec.getLsbD_append, hk, decide_true, Bool.true_and]
     repeat' split
     all_goals first | omega | (congr 1; omega))
  all_goals simp only [BitVec.getLsbD_append, BitVec.getLsbD_ofBool]; simp

/-- The fields cover the word: no bit is left out. -/
theorem layOut_fieldsOf (w : CmdWord) : layOut (opField w) (fieldsOf w) = w := by
  apply BitVec.eq_of_getLsbD_eq; intro k hk
  simp only [fieldsOf, layOut, opField]
  simp only [BitVec.getLsbD_extractLsb', BitVec.getLsbD_append, BitVec.getLsbD_ofBool]
  repeat' split
  any_goals
    rename_i h
    (rw [decide_eq_true (by omega), Bool.true_and]; congr 1; omega)

/-- What CHECK accepts. -/
theorem legalOp_iff (w : CmdWord) : legalOp w = true ↔ opField w = 0#8 ∨ opField w = 1#8 := by
  simp [legalOp, Config.rwRead, Config.rwWrite]

/-- The operands of a laid-out word, field by field. -/
theorem operandsOf_layOut (op : Byte) (f : CmdFields) :
    operandsOf (layOut op f) =
      ⟨op, f.addr, lengthOperand f, f.data, expectedSet op f, expectedOperand op f⟩ := by
  simp only [operandsOf, opField_layOut, fieldsOf_layOut]

/-- Both instructions have a legal `OP`. -/
theorem legalOp_encode (i : Instr) : legalOp (encode i) = true := by
  cases i <;> simp [legalOp, encode, opField_layOut]

end Sys2Proof.Laws
end

