-- ==== Sys2Proof/Laws/Frame.lean ====
section
/-! SUPPORT. What the frame encoder gives, and that SEND presents it. -/

namespace Sys2Proof.Laws

open Sys2Proof.Machine

theorem packRead_length (a l : Half) : (packRead a l).length = Config.readFrameLen := rfl

theorem packWrite_length (a l : Half) (d : Word) : (packWrite a l d).length = Config.writeFrameLen := rfl

/-- A legal `OP` packs to one of the two frames. -/
theorem pack_of_legalOp {w : CmdWord} (h : legalOp w = true) :
    (opField w = 0#8 ∧ pack (operandsOf w).rw (operandsOf w).addr (operandsOf w).len (operandsOf w).data
      = some (packRead (operandsOf w).addr (operandsOf w).len)) ∨
    (opField w = 1#8 ∧ pack (operandsOf w).rw (operandsOf w).addr (operandsOf w).len (operandsOf w).data
      = some (packWrite (operandsOf w).addr (operandsOf w).len (operandsOf w).data)) := by
  rcases (legalOp_iff w).1 h with h | h
  · exact .inl ⟨h, by simp [pack, operandsOf, h, Config.rwRead]⟩
  · exact .inr ⟨h, by simp [pack, operandsOf, h, Config.rwRead, Config.rwWrite]⟩

/-- A frame that has been stored is what SEND presents, whatever the buffer held before. -/
theorem presentedFrame_of_pack {rw : Byte} {a l : Half} {d : Word} {f : List Byte} {r : Regs} {b : FrameBuf}
    (h : pack rw a l d = some f) (hf : r.fb = storeFrame f b) (hl : r.fbLen = BitVec.ofNat 4 f.length) :
    presentedFrame r = f := by
  unfold pack at h
  split at h
  · cases h; simp [presentedFrame, hf, hl, packRead, be16, storeFrame, bufferBytes]
  · split at h
    · cases h; simp [presentedFrame, hf, hl, packWrite, be16, be32, storeFrame, bufferBytes]
    · cases h

end Sys2Proof.Laws
end

