-- ==== Sys2Proof/Laws/Parser.lean ====
section
/-! SUPPORT. One round of the accumulation, as arithmetic. -/

namespace Sys2Proof.Laws

open Sys2Proof.Machine

theorem accumulateByte_eq (acc : Nat) (b : Byte) : accumulateByte acc b = acc * 256 + b.toNat := by
  unfold accumulateByte
  rw [← Nat.shiftLeft_add_eq_or_of_lt b.isLt, Nat.shiftLeft_eq]

/-- One more byte takes at most eight more bits. -/
theorem accumulateByte_lt (acc k : Nat) (b : Byte) (h : acc < 2 ^ (8 * k)) :
    accumulateByte acc b < 2 ^ (8 * (k + 1)) := by
  have hb := b.isLt
  rw [accumulateByte_eq, show 8 * (k + 1) = 8 * k + 8 by ring, pow_add]
  omega

theorem parseInt_of_ne_nil {s : List Byte} (h : s ≠ []) : parseInt s = some (s.foldl accumulateByte 0) := by
  cases s with
  | nil => exact absurd rfl h
  | cons => rfl

theorem parseInt_getD (s : List Byte) : (parseInt s).getD 0 = s.foldl accumulateByte 0 := by cases s <;> rfl

theorem parseInt_isSome (s : List Byte) : (parseInt s).isSome = decide (s.length ≠ 0) := by
  cases s <;> simp [parseInt]

end Sys2Proof.Laws
end

