-- ==== Sys2Proof/Laws/PerInstr.lean ====
section
/-! SUPPORT. One lemma per instruction: its word carries the `OP` of its row of the opcode table. -/

namespace Sys2Proof.Laws.TableRow

/-- The `OP` byte of the instruction's word is that of its row: 0x00 for READ, 0x01 for WRITE (30_encoding.md rule R65). -/
def Statement : Instr → Prop
  | .read f => opField (encode (.read f)) = 0x00#8
  | .write f => opField (encode (.write f)) = 0x01#8

theorem read (f : CmdFields) : Statement (.read f) := opField_layOut _ _

theorem write (f : CmdFields) : Statement (.write f) := opField_layOut _ _

end Sys2Proof.Laws.TableRow
end

