-- ==== Sys2Proof/Laws/State.lean ====
section
/-! SUPPORT. What each named update leaves in each field, so that no proof unfolds a record update. -/

namespace Sys2Proof.Laws

open Sys2Proof.Machine

/-! ### `goto`: a move of the sequencer -/

@[simp] theorem goto_seq (q : SeqState) (r : Regs) : (goto q r).seq = q := rfl
@[simp] theorem goto_cw (q : SeqState) (r : Regs) : (goto q r).cw = r.cw := rfl
@[simp] theorem goto_cmd (q : SeqState) (r : Regs) : (goto q r).cmd = r.cmd := rfl
@[simp] theorem goto_fb (q : SeqState) (r : Regs) : (goto q r).fb = r.fb := rfl
@[simp] theorem goto_fbLen (q : SeqState) (r : Regs) : (goto q r).fbLen = r.fbLen := rfl
@[simp] theorem goto_retLen (q : SeqState) (r : Regs) : (goto q r).retLen = r.retLen := rfl
@[simp] theorem goto_acc (q : SeqState) (r : Regs) : (goto q r).acc = r.acc := rfl
@[simp] theorem goto_rxCount (q : SeqState) (r : Regs) : (goto q r).rxCount = r.rxCount := rfl
@[simp] theorem goto_pRecvValid (q : SeqState) (r : Regs) : (goto q r).pRecvValid = r.pRecvValid := rfl
@[simp] theorem goto_pRbf (q : SeqState) (r : Regs) : (goto q r).pRbf = r.pRbf := rfl
@[simp] theorem goto_pMismatch (q : SeqState) (r : Regs) : (goto q r).pMismatch = r.pMismatch := rfl
@[simp] theorem goto_eClass (q : SeqState) (r : Regs) : (goto q r).eClass = r.eClass := rfl
@[simp] theorem goto_eCause (q : SeqState) (r : Regs) : (goto q r).eCause = r.eCause := rfl
@[simp] theorem goto_res (q : SeqState) (r : Regs) : (goto q r).res = r.res := rfl

/-! ### `raiseError`: taking an error -/

@[simp] theorem raiseError_seq (c : ErrClass) (k : CfgCause) (r : Regs) : (raiseError c k r).seq = .error := rfl
@[simp] theorem raiseError_cw (c : ErrClass) (k : CfgCause) (r : Regs) : (raiseError c k r).cw = r.cw := rfl
@[simp] theorem raiseError_cmd (c : ErrClass) (k : CfgCause) (r : Regs) : (raiseError c k r).cmd = r.cmd := rfl
@[simp] theorem raiseError_fb (c : ErrClass) (k : CfgCause) (r : Regs) : (raiseError c k r).fb = r.fb := rfl
@[simp] theorem raiseError_fbLen (c : ErrClass) (k : CfgCause) (r : Regs) : (raiseError c k r).fbLen = r.fbLen := rfl
@[simp] theorem raiseError_retLen (c : ErrClass) (k : CfgCause) (r : Regs) : (raiseError c k r).retLen = r.retLen := rfl
@[simp] theorem raiseError_acc (c : ErrClass) (k : CfgCause) (r : Regs) : (raiseError c k r).acc = r.acc := rfl
@[simp] theorem raiseError_rxCount (c : ErrClass) (k : CfgCause) (r : Regs) : (raiseError c k r).rxCount = r.rxCount := rfl
@[simp] theorem raiseError_pRecvValid (c : ErrClass) (k : CfgCause) (r : Regs) : (raiseError c k r).pRecvValid = r.pRecvValid := rfl
@[simp] theorem raiseError_pRbf (c : ErrClass) (k : CfgCause) (r : Regs) : (raiseError c k r).pRbf = r.pRbf := rfl
@[simp] theorem raiseError_pMismatch (c : ErrClass) (k : CfgCause) (r : Regs) : (raiseError c k r).pMismatch = r.pMismatch := rfl
@[simp] theorem raiseError_eClass (c : ErrClass) (k : CfgCause) (r : Regs) : (raiseError c k r).eClass = c := rfl
@[simp] theorem raiseError_eCause (c : ErrClass) (k : CfgCause) (r : Regs) : (raiseError c k r).eCause = k := rfl
@[simp] theorem raiseError_res (c : ErrClass) (k : CfgCause) (r : Regs) : (raiseError c k r).res = r.res := rfl

/-! ### `leaveError`: returning from an error -/

@[simp] theorem leaveError_seq (r : Regs) : (leaveError r).seq = .idle := rfl
@[simp] theorem leaveError_cw (r : Regs) : (leaveError r).cw = r.cw := rfl
@[simp] theorem leaveError_cmd (r : Regs) : (leaveError r).cmd = r.cmd := rfl
@[simp] theorem leaveError_fb (r : Regs) : (leaveError r).fb = r.fb := rfl
@[simp] theorem leaveError_fbLen (r : Regs) : (leaveError r).fbLen = r.fbLen := rfl
@[simp] theorem leaveError_retLen (r : Regs) : (leaveError r).retLen = r.retLen := rfl
@[simp] theorem leaveError_acc (r : Regs) : (leaveError r).acc = r.acc := rfl
@[simp] theorem leaveError_rxCount (r : Regs) : (leaveError r).rxCount = r.rxCount := rfl
@[simp] theorem leaveError_pRecvValid (r : Regs) : (leaveError r).pRecvValid = r.pRecvValid := rfl
@[simp] theorem leaveError_pRbf (r : Regs) : (leaveError r).pRbf = r.pRbf := rfl
@[simp] theorem leaveError_pMismatch (r : Regs) : (leaveError r).pMismatch = r.pMismatch := rfl
@[simp] theorem leaveError_eClass (r : Regs) : (leaveError r).eClass = r.eClass := rfl
@[simp] theorem leaveError_eCause (r : Regs) : (leaveError r).eCause = r.eCause := rfl
@[simp] theorem leaveError_res (r : Regs) : (leaveError r).res = r.res := rfl

/-! ### `acceptCommand`: a command is accepted -/

@[simp] theorem acceptCommand_seq (w : CmdWord) (r : Regs) : (acceptCommand w r).seq = .check := rfl
@[simp] theorem acceptCommand_cw (w : CmdWord) (r : Regs) : (acceptCommand w r).cw = w := rfl
@[simp] theorem acceptCommand_cmd (w : CmdWord) (r : Regs) : (acceptCommand w r).cmd = r.cmd := rfl
@[simp] theorem acceptCommand_fb (w : CmdWord) (r : Regs) : (acceptCommand w r).fb = r.fb := rfl
@[simp] theorem acceptCommand_fbLen (w : CmdWord) (r : Regs) : (acceptCommand w r).fbLen = r.fbLen := rfl
@[simp] theorem acceptCommand_retLen (w : CmdWord) (r : Regs) : (acceptCommand w r).retLen = r.retLen := rfl
@[simp] theorem acceptCommand_acc (w : CmdWord) (r : Regs) : (acceptCommand w r).acc = r.acc := rfl
@[simp] theorem acceptCommand_rxCount (w : CmdWord) (r : Regs) : (acceptCommand w r).rxCount = r.rxCount := rfl
@[simp] theorem acceptCommand_pRecvValid (w : CmdWord) (r : Regs) : (acceptCommand w r).pRecvValid = r.pRecvValid := rfl
@[simp] theorem acceptCommand_pRbf (w : CmdWord) (r : Regs) : (acceptCommand w r).pRbf = r.pRbf := rfl
@[simp] theorem acceptCommand_pMismatch (w : CmdWord) (r : Regs) : (acceptCommand w r).pMismatch = r.pMismatch := rfl
@[simp] theorem acceptCommand_eClass (w : CmdWord) (r : Regs) : (acceptCommand w r).eClass = .none := rfl
@[simp] theorem acceptCommand_eCause (w : CmdWord) (r : Regs) : (acceptCommand w r).eCause = .none := rfl
@[simp] theorem acceptCommand_res (w : CmdWord) (r : Regs) : (acceptCommand w r).res = r.res := rfl

/-! ### `absorbByte`: a response byte is absorbed -/

@[simp] theorem absorbByte_seq (b : Byte) (r : Regs) : (absorbByte b r).seq = r.seq := rfl
@[simp] theorem absorbByte_cw (b : Byte) (r : Regs) : (absorbByte b r).cw = r.cw := rfl
@[simp] theorem absorbByte_cmd (b : Byte) (r : Regs) : (absorbByte b r).cmd = r.cmd := rfl
@[simp] theorem absorbByte_fb (b : Byte) (r : Regs) : (absorbByte b r).fb = r.fb := rfl
@[simp] theorem absorbByte_fbLen (b : Byte) (r : Regs) : (absorbByte b r).fbLen = r.fbLen := rfl
@[simp] theorem absorbByte_retLen (b : Byte) (r : Regs) : (absorbByte b r).retLen = r.retLen := rfl
@[simp] theorem absorbByte_acc (b : Byte) (r : Regs) : (absorbByte b r).acc = accumulateByte r.acc b := rfl
@[simp] theorem absorbByte_rxCount (b : Byte) (r : Regs) : (absorbByte b r).rxCount = r.rxCount + 1#16 := rfl
@[simp] theorem absorbByte_pRecvValid (b : Byte) (r : Regs) : (absorbByte b r).pRecvValid = r.pRecvValid := rfl
@[simp] theorem absorbByte_pRbf (b : Byte) (r : Regs) : (absorbByte b r).pRbf = r.pRbf := rfl
@[simp] theorem absorbByte_pMismatch (b : Byte) (r : Regs) : (absorbByte b r).pMismatch = r.pMismatch := rfl
@[simp] theorem absorbByte_eClass (b : Byte) (r : Regs) : (absorbByte b r).eClass = r.eClass := rfl
@[simp] theorem absorbByte_eCause (b : Byte) (r : Regs) : (absorbByte b r).eCause = r.eCause := rfl
@[simp] theorem absorbByte_res (b : Byte) (r : Regs) : (absorbByte b r).res = r.res := rfl

/-! ### `parseRegs`: PARSE -/

@[simp] theorem parseRegs_seq (r : Regs) : (parseRegs r).seq = .compare := rfl
@[simp] theorem parseRegs_cw (r : Regs) : (parseRegs r).cw = r.cw := rfl
@[simp] theorem parseRegs_cmd (r : Regs) : (parseRegs r).cmd = r.cmd := rfl
@[simp] theorem parseRegs_fb (r : Regs) : (parseRegs r).fb = r.fb := rfl
@[simp] theorem parseRegs_fbLen (r : Regs) : (parseRegs r).fbLen = r.fbLen := rfl
@[simp] theorem parseRegs_retLen (r : Regs) : (parseRegs r).retLen = r.retLen := rfl
@[simp] theorem parseRegs_acc (r : Regs) : (parseRegs r).acc = r.acc := rfl
@[simp] theorem parseRegs_rxCount (r : Regs) : (parseRegs r).rxCount = r.rxCount := rfl
@[simp] theorem parseRegs_pRecvValid (r : Regs) : (parseRegs r).pRecvValid = recvValidFlag r := rfl
@[simp] theorem parseRegs_pRbf (r : Regs) : (parseRegs r).pRbf = readbackFailedFlag r := rfl
@[simp] theorem parseRegs_pMismatch (r : Regs) : (parseRegs r).pMismatch = r.pMismatch := rfl
@[simp] theorem parseRegs_eClass (r : Regs) : (parseRegs r).eClass = r.eClass := rfl
@[simp] theorem parseRegs_eCause (r : Regs) : (parseRegs r).eCause = r.eCause := rfl
@[simp] theorem parseRegs_res (r : Regs) : (parseRegs r).res = r.res := rfl

/-! ### `compareRegs`: COMPARE -/

@[simp] theorem compareRegs_seq (r : Regs) : (compareRegs r).seq = .done := rfl
@[simp] theorem compareRegs_cw (r : Regs) : (compareRegs r).cw = r.cw := rfl
@[simp] theorem compareRegs_cmd (r : Regs) : (compareRegs r).cmd = r.cmd := rfl
@[simp] theorem compareRegs_fb (r : Regs) : (compareRegs r).fb = r.fb := rfl
@[simp] theorem compareRegs_fbLen (r : Regs) : (compareRegs r).fbLen = r.fbLen := rfl
@[simp] theorem compareRegs_retLen (r : Regs) : (compareRegs r).retLen = r.retLen := rfl
@[simp] theorem compareRegs_acc (r : Regs) : (compareRegs r).acc = r.acc := rfl
@[simp] theorem compareRegs_rxCount (r : Regs) : (compareRegs r).rxCount = r.rxCount := rfl
@[simp] theorem compareRegs_pRecvValid (r : Regs) : (compareRegs r).pRecvValid = r.pRecvValid := rfl
@[simp] theorem compareRegs_pRbf (r : Regs) : (compareRegs r).pRbf = r.pRbf := rfl
@[simp] theorem compareRegs_pMismatch (r : Regs) : (compareRegs r).pMismatch = mismatchFlag r := rfl
@[simp] theorem compareRegs_eClass (r : Regs) : (compareRegs r).eClass = r.eClass := rfl
@[simp] theorem compareRegs_eCause (r : Regs) : (compareRegs r).eCause = r.eCause := rfl
@[simp] theorem compareRegs_res (r : Regs) : (compareRegs r).res = resultOf r := rfl

/-! ### `doneRegs`: DONE -/

@[simp] theorem doneRegs_seq (r : Regs) : (doneRegs r).seq = .idle := rfl
@[simp] theorem doneRegs_cw (r : Regs) : (doneRegs r).cw = r.cw := rfl
@[simp] theorem doneRegs_cmd (r : Regs) : (doneRegs r).cmd = r.cmd := rfl
@[simp] theorem doneRegs_fb (r : Regs) : (doneRegs r).fb = r.fb := rfl
@[simp] theorem doneRegs_fbLen (r : Regs) : (doneRegs r).fbLen = r.fbLen := rfl
@[simp] theorem doneRegs_retLen (r : Regs) : (doneRegs r).retLen = r.retLen := rfl
@[simp] theorem doneRegs_acc (r : Regs) : (doneRegs r).acc = r.acc := rfl
@[simp] theorem doneRegs_rxCount (r : Regs) : (doneRegs r).rxCount = r.rxCount := rfl
@[simp] theorem doneRegs_pRecvValid (r : Regs) : (doneRegs r).pRecvValid = r.pRecvValid := rfl
@[simp] theorem doneRegs_pRbf (r : Regs) : (doneRegs r).pRbf = r.pRbf := rfl
@[simp] theorem doneRegs_pMismatch (r : Regs) : (doneRegs r).pMismatch = r.pMismatch := rfl
@[simp] theorem doneRegs_eClass (r : Regs) : (doneRegs r).eClass = r.eClass := rfl
@[simp] theorem doneRegs_eCause (r : Regs) : (doneRegs r).eCause = r.eCause := rfl
@[simp] theorem doneRegs_res (r : Regs) : (doneRegs r).res = r.res := rfl

/-! ### The environment -/

@[simp] theorem nextPorts_cons (r : Regs) (a : Nat) (p : PortIn) (ps : List PortIn) (d : Nat) (j : List Event) :
    nextPorts ⟨r, a, p :: ps, d, j⟩ = p := rfl
@[simp] theorem dropPorts_cons (r : Regs) (a : Nat) (p : PortIn) (ps : List PortIn) (d : Nat) (j : List Event) :
    dropPorts ⟨r, a, p :: ps, d, j⟩ = ⟨r, a, ps, d, j⟩ := rfl
@[simp] theorem dropPorts_nil (r : Regs) (a d : Nat) (j : List Event) :
    dropPorts ⟨r, a, [], d, j⟩ = ⟨r, a, [], d + 1, j⟩ := rfl
@[simp] theorem dropPorts_regs (s : State) : (dropPorts s).regs = s.regs := by unfold dropPorts; split <;> rfl
@[simp] theorem dropPorts_accBits (s : State) : (dropPorts s).accBits = s.accBits := by unfold dropPorts; split <;> rfl
@[simp] theorem dropPorts_journal (s : State) : (dropPorts s).journal = s.journal := by unfold dropPorts; split <;> rfl
@[simp] theorem presenting_rst (w : CmdWord) (p : PortIn) : (presenting w p).rst = p.rst := rfl
@[simp] theorem presenting_cmdValid (w : CmdWord) (p : PortIn) : (presenting w p).cmdValid = true := rfl
@[simp] theorem presenting_cmdWord (w : CmdWord) (p : PortIn) : (presenting w p).cmdWord = w := rfl
@[simp] theorem placeCommand_seq (w : CmdWord) (s : State) : (placeCommand w s).regs.seq = .idle := rfl
@[simp] theorem placeCommand_accBits (w : CmdWord) (s : State) : (placeCommand w s).accBits = s.accBits := rfl
@[simp] theorem placeCommand_drawn (w : CmdWord) (s : State) : (placeCommand w s).drawn = s.drawn := rfl
@[simp] theorem placeCommand_journal (w : CmdWord) (s : State) : (placeCommand w s).journal = s.journal := rfl

end Sys2Proof.Laws
end

