-- ==== Sys2Proof/Laws/Sequencer.lean ====
section
/-! SUPPORT. What one block step, a run of them, a command and a step of the machine can do, said once each. -/

namespace Sys2Proof.Laws

open Sys2Proof.Machine

/-! ### One block step -/

theorem nextRegs_rst {n : Nat} {p : PortIn} (r : Regs) (h : p.rst = true) : nextRegs n p r = .next .reset := by
  simp [nextRegs, h]

theorem nextRegs_idle {n : Nat} {p : PortIn} {r : Regs} (h : p.rst = false) (hq : r.seq = .idle) :
    nextRegs n p r = .next (idleRegs p r) := by simp [nextRegs, h, hq]

theorem nextRegs_check {n : Nat} {p : PortIn} {r : Regs} (h : p.rst = false) (hq : r.seq = .check) :
    nextRegs n p r = .next (checkRegs p r) := by simp [nextRegs, h, hq]

theorem nextRegs_build {n : Nat} {p : PortIn} {r : Regs} (h : p.rst = false) (hq : r.seq = .build) :
    nextRegs n p r = .next (buildRegs r) := by simp [nextRegs, h, hq]

theorem nextRegs_send {n : Nat} {p : PortIn} {r : Regs} (h : p.rst = false) (hq : r.seq = .send) :
    nextRegs n p r = .next (sendRegs p r) := by simp [nextRegs, h, hq]

theorem nextRegs_recv {n : Nat} {p : PortIn} {r : Regs} (h : p.rst = false) (hq : r.seq = .recv) :
    nextRegs n p r = recvRegs n p r := by simp [nextRegs, h, hq]

theorem nextRegs_parse {n : Nat} {p : PortIn} {r : Regs} (h : p.rst = false) (hq : r.seq = .parse) :
    nextRegs n p r = .next (parseRegs r) := by simp [nextRegs, h, hq]

theorem nextRegs_compare {n : Nat} {p : PortIn} {r : Regs} (h : p.rst = false) (hq : r.seq = .compare) :
    nextRegs n p r = .next (compareRegs r) := by simp [nextRegs, h, hq]

theorem nextRegs_done {n : Nat} {p : PortIn} {r : Regs} (h : p.rst = false) (hq : r.seq = .done) :
    nextRegs n p r = .next (doneRegs r) := by simp [nextRegs, h, hq]

theorem nextRegs_error {n : Nat} {p : PortIn} {r : Regs} (h : p.rst = false) (hq : r.seq = .error) :
    nextRegs n p r = .next (leaveError r) := by simp [nextRegs, h, hq]

/-- What RECV can do: absorb the offered byte or not, and then end the read or not. -/
theorem recvRegs_next {n : Nat} {p : PortIn} {r r' : Regs} (h : recvRegs n p r = .next r') :
    (absorbs p r = true ∧ r.rxCount.toNat + 1 ≤ accumulatorBytes n ∧ r' = endReadRegs p (absorbByte p.tpRxByte r)) ∨
    (absorbs p r = false ∧ r' = endReadRegs p r) := by
  unfold recvRegs at h
  split at h
  · split at h
    · exact .inl ⟨‹_›, ‹_›, by simpa using h.symm⟩
    · cases h
  · rename_i hab; exact .inr ⟨by simpa using hab, by simpa using h.symm⟩

/-- What RECV leaves in `ACC`: in every build the exact value. -/
theorem recvRegs_acc {n : Nat} {p : PortIn} {r r' : Regs} (h : recvRegs n p r = .next r') :
    r'.acc = if absorbs p r then accumulateByte r.acc p.tpRxByte else r.acc := by
  rcases recvRegs_next h with ⟨hab, -, rfl⟩ | ⟨hab, rfl⟩ <;> unfold endReadRegs <;> split <;> simp [hab]

/-- A block step that has a next state writes the registers and appends to the journal, nothing else. -/
theorem stepWith_next {p : PortIn} {s t : State} (h : stepWith p s = .next t) :
    ∃ r, nextRegs s.accBits p s.regs = .next r ∧
      t = { s with regs := r, journal := s.journal ++ emitted p s.regs r } := by
  unfold stepWith at h
  split at h
  · rename_i r hr; exact ⟨r, hr, by simpa using h.symm⟩
  · cases h
  · cases h

/-! ### Runs -/

theorem runUntilIdle_idle {n : Nat} {s : State} (h : s.regs.seq = .idle) : runUntilIdle n s = .next s := by
  cases n <;> simp [runUntilIdle, h]

theorem runUntilIdle_cons {p : PortIn} {ps : List PortIn} {r r' : Regs} {a d : Nat} {j : List Event}
    (h : r.seq ≠ .idle) (hn : nextRegs a p r = .next r') :
    runUntilIdle (p :: ps).length ⟨r, a, p :: ps, d, j⟩ =
      runUntilIdle ps.length ⟨r', a, ps, d, j ++ emitted p r r'⟩ := by
  rw [List.length_cons, runUntilIdle]
  simp [h, blockStep, stepWith, hn]

theorem runUntilIdle_cons_refused {p : PortIn} {ps : List PortIn} {r : Regs} {a d : Nat} {j : List Event} {e : Refusal}
    (h : r.seq ≠ .idle) (hn : nextRegs a p r = .refused e) :
    runUntilIdle (p :: ps).length ⟨r, a, p :: ps, d, j⟩ = .refused e := by
  rw [List.length_cons, runUntilIdle]
  simp [h, blockStep, stepWith, hn]

/-- What every block step of a busy block keeps, a run keeps. -/
theorem runUntilIdle_induction {P : State → Prop} (hP : ∀ s t, P s → s.regs.seq ≠ .idle → blockStep s = .next t → P t)
    (n : Nat)
    {s t : State} (h : P s) (ht : runUntilIdle n s = .next t) : P t := by
  induction n generalizing s with
  | zero => simp [runUntilIdle] at ht; exact ht ▸ h
  | succ n ih =>
    unfold runUntilIdle at ht
    split at ht
    · simp at ht; exact ht ▸ h
    · rename_i hi
      split at ht
      · rename_i u hu; exact ih (hP s u h hi hu) ht
      · cases ht
      · cases ht

/-- The same over a port script, with the registers before and after each step at hand; and a run ends in IDLE or with the
script used up. -/
theorem runUntilIdle_script {P : State → Prop}
    (hP : ∀ r a p ps d j r', P ⟨r, a, p :: ps, d, j⟩ → r.seq ≠ .idle → nextRegs a p r = .next r' →
      P ⟨r', a, ps, d, j ++ emitted p r r'⟩)
    (ps : List PortIn) {r : Regs} {a d : Nat} {j : List Event} {t : State} (h : P ⟨r, a, ps, d, j⟩)
    (ht : runUntilIdle ps.length ⟨r, a, ps, d, j⟩ = .next t) : P t ∧ (t.regs.seq = .idle ∨ t.ports = []) := by
  induction ps generalizing r j with
  | nil => simp [runUntilIdle] at ht; subst ht; exact ⟨h, .inr rfl⟩
  | cons p ps ih =>
    by_cases hs : r.seq = .idle
    · rw [runUntilIdle_idle hs] at ht; simp at ht; subst ht; exact ⟨h, .inl hs⟩
    · cases hn : nextRegs a p r with
      | next r' => rw [runUntilIdle_cons hs hn] at ht; exact ih (hP _ _ _ _ _ _ _ h hs hn) ht
      | fault e => cases e
      | refused e => rw [runUntilIdle_cons_refused hs hn] at ht; cases ht

/-! ### Commands and steps -/

theorem exec_eq_runCommand (i : Instr) (s : State) : exec i s = runCommand (encode i) s := by cases i <;> rfl

/-- A command that gives a next state has made one block step, and the rest of its run if the block was idle. -/
theorem runCommand_next {w : CmdWord} {s t : State} (h : runCommand w s = .next t) :
    ∃ u, stepWith (presenting w (nextPorts s)) (dropPorts s) = .next u ∧
      (s.regs.seq = .idle ∧ runUntilIdle u.ports.length u = .next t ∨ s.regs.seq ≠ .idle ∧ t = u) := by
  unfold runCommand at h
  split at h
  · rename_i u hu
    refine ⟨u, hu, ?_⟩
    split at h
    · exact .inl ⟨‹_›, h⟩
    · exact .inr ⟨‹_›, by simpa using h.symm⟩
  · cases h
  · cases h

/-- An idle block accepts the command and runs on from CHECK. -/
theorem runCommand_accept {w : CmdWord} {r : Regs} {a d : Nat} {p : PortIn} {ps : List PortIn} {j : List Event}
    (h : r.seq = .idle) (hp : p.rst = false) :
    runCommand w ⟨r, a, p :: ps, d, j⟩ = runUntilIdle ps.length ⟨acceptCommand w r, a, ps, d, j⟩ := by
  simp [runCommand, stepWith, nextRegs, idleRegs, hp, h, emitted]

/-- A step is a command's run where the next inputs present one to an idle block, and one block step otherwise. -/
theorem step_cases (s : State) :
    step s = blockStep s ∨ ∃ w, fetchedWord s = some w ∧ step s = runCommand w s := by
  unfold step
  split
  · exact .inl rfl
  · rename_i w hw
    refine .inr ⟨w, hw, ?_⟩
    split
    · rename_i i hi
      have : encode i = w := by
        unfold decode at hi
        split at hi
        · cases hi; rename_i h; rw [encode, ← h, layOut_fieldsOf]
        · split at hi
          · cases hi; rename_i h; rw [encode, ← h, layOut_fieldsOf]
          · cases hi
      rw [exec_eq_runCommand, this]
    · rfl

end Sys2Proof.Laws
end

