-- ==== Sys2Proof/Laws/Phases.lean ====
section
/-! SUPPORT. The phases of a transaction over a port script without a reset: what SEND, RECV and the last three steps do
as a whole. -/

namespace Sys2Proof.Laws

open Sys2Proof.Machine

/-- SEND over the inputs `ps` (and `tl` after them) waits for the answer that `tpWrite` reads off them. -/
theorem send_phase (tl : List PortIn) (a d : Nat) : ∀ (ps : List PortIn) (r : Regs) (j : List Event),
    r.seq = .send → (∀ p ∈ ps, p.rst = false) →
    runUntilIdle (ps ++ tl).length ⟨r, a, ps ++ tl, d, j⟩ =
      match tpWrite ps with
      | none => runUntilIdle tl.length ⟨r, a, tl, d, j⟩
      | some (true, rest) =>
        runUntilIdle (rest ++ tl).length
          ⟨{ r with seq := .recv }, a, rest ++ tl, d, j ++ [.writeEnded true, .readRequested r.retLen]⟩
      | some (false, rest) =>
        runUntilIdle (rest ++ tl).length
          ⟨{ r with eClass := .transport, eCause := .none, seq := .error }, a, rest ++ tl, d, j ++ [.writeEnded false]⟩ := by
  intro ps
  induction ps with
  | nil => intro r j h _; simp [tpWrite]
  | cons p ps ih =>
    intro r j h hr
    have hp := hr p (by simp)
    have hs : r.seq ≠ .idle := by simp [h]
    unfold tpWrite
    rw [List.cons_append]
    by_cases he : p.tpWrErr = true
    · simp only [he, if_true]
      rw [runUntilIdle_cons (r' := {r with eClass := .transport, eCause := .none, seq := .error}) hs (by simp [nextRegs, hp, h, sendRegs, he, raiseError])]
      simp [emitted, h, hp, he]
    · by_cases ha : p.tpWrAck = true
      · simp only [he, ha, if_true]
        rw [runUntilIdle_cons (r' := {r with seq := .recv}) hs (by simp [nextRegs, hp, h, sendRegs, he, ha, goto])]
        simp [emitted, h, hp, he, ha]
      · simp only [he, ha]
        rw [runUntilIdle_cons (r' := r) hs (by simp [nextRegs, hp, h, sendRegs, he, ha])]
        rw [ih _ _ h (fun q hq => hr q (by simp [hq]))]
        simp [emitted, h, hp, he, ha]

/-- RECV absorbs exactly where `tpRead` takes the offered byte. -/
theorem absorbs_iff (p : PortIn) (r : Regs) :
    absorbs p r = true ↔ offeredByte (r.retLen.toNat - r.rxCount.toNat) p = [p.tpRxByte] := by
  simp [absorbs, offeredByte]

/-- RECV over the inputs `ps` (and `tl` after them) absorbs the bytes that `tpRead` reads off them, where the accumulator
holds them; where the read does not end, the default build is still in RECV. -/
theorem recv_phase (tl : List PortIn) (a d : Nat) : ∀ (ps : List PortIn) (r : Regs) (j : List Event),
    r.seq = .recv → (∀ p ∈ ps, p.rst = false) →
    match tpRead (r.retLen.toNat - r.rxCount.toNat) ps with
    | none =>
      a = 524280 → ∃ r', runUntilIdle (ps ++ tl).length ⟨r, a, ps ++ tl, d, j⟩ = runUntilIdle tl.length ⟨r', a, tl, d, j⟩ ∧
        r'.seq = .recv ∧ r'.cw = r.cw
    | some (s, rest) =>
      r.rxCount.toNat + s.length ≤ a / 8 → r.rxCount.toNat ≤ r.retLen.toNat →
        s.length ≤ r.retLen.toNat - r.rxCount.toNat ∧
        runUntilIdle (ps ++ tl).length ⟨r, a, ps ++ tl, d, j⟩ =
          runUntilIdle (rest ++ tl).length
            ⟨{ r with
                acc := s.foldl accumulateByte r.acc
                rxCount := r.rxCount + BitVec.ofNat 16 s.length
                seq := .parse }, a, rest ++ tl, d, j ++ [.readEnded]⟩ := by
  intro ps
  induction ps with
  | nil => intro r j h _; simp [tpRead]; intro _; exact ⟨r, rfl, h, rfl⟩
  | cons p ps ih =>
    intro r j h hr
    have hp := hr p (by simp)
    have hs : r.seq ≠ .idle := by simp [h]
    unfold tpRead
    rw [List.cons_append]
    have hrl := r.retLen.isLt
    by_cases hd : p.tpRdDone = true
    · simp only [hd, if_true]
      intro hw hle
      by_cases hab : absorbs p r = true
      · have ho := (absorbs_iff p r).1 hab
        rw [ho] at hw ⊢
        have hab' := hab
        simp [absorbs] at hab'
        refine ⟨by simp; omega, ?_⟩
        simp at hw
        rw [runUntilIdle_cons (r' := {r with acc := accumulateByte r.acc p.tpRxByte, rxCount := r.rxCount + 1#16, seq := .parse}) hs (by simp [nextRegs, hp, h, recvRegs, hab, accumulatorBytes, hw, endReadRegs, hd, goto, absorbByte])]
        simp [emitted, h, hp, hd]
      · have ho : offeredByte (r.retLen.toNat - r.rxCount.toNat) p = [] := by
          simp [absorbs] at hab; simp [offeredByte]; intro h1; have := hab h1; omega
        rw [ho]
        refine ⟨by simp, ?_⟩
        rw [runUntilIdle_cons (r' := {r with seq := .parse}) hs (by simp [nextRegs, hp, h, recvRegs, hab, endReadRegs, hd, goto])]
        simp [emitted, h, hp, hd]
    · have hd : p.tpRdDone = false := by simpa using hd
      simp only [hd, Bool.false_eq_true, if_false]
      by_cases hab : absorbs p r = true
      · have ho := (absorbs_iff p r).1 hab
        have hab' := hab
        simp [absorbs] at hab'
        have hc : (r.rxCount + 1#16).toNat = r.rxCount.toNat + 1 := by
          rw [BitVec.toNat_add]; simp; omega
        have IH := ih (absorbByte p.tpRxByte r) j (by simp [absorbByte, h]) (fun q hq => hr q (by simp [hq]))
        simp only [absorbByte, hc] at IH
        rw [ho]
        simp only [List.length_singleton]
        rw [show r.retLen.toNat - (r.rxCount.toNat + 1) = r.retLen.toNat - r.rxCount.toNat - 1 by omega] at IH
        split
        · rename_i hx
          split at hx
          · rename_i hy
            rw [hy] at IH
            intro haa
            obtain ⟨r', e1, e2, e3⟩ := IH haa
            refine ⟨r', ?_, e2, e3⟩
            rw [runUntilIdle_cons (r' := absorbByte p.tpRxByte r) hs (by simp [nextRegs, hp, h, recvRegs, hab, accumulatorBytes, endReadRegs, hd, haa]; omega)]
            simpa [emitted, h, hp, hd, absorbByte] using e1
          · cases hx
        · rename_i s rest hx
          split at hx
          · cases hx
          · rename_i bytes rest' hy
            simp at hx
            obtain ⟨rfl, rfl⟩ := hx
            rw [hy] at IH
            intro hw hle
            simp at hw
            obtain ⟨i1, i2⟩ := IH (by omega) (by omega)
            refine ⟨by simp; omega, ?_⟩
            rw [runUntilIdle_cons (r' := absorbByte p.tpRxByte r) hs (by simp [nextRegs, hp, h, recvRegs, hab, accumulatorBytes, endReadRegs, hd]; omega)]
            simp only [emitted, h, hp, hd]
            simp [absorbByte]
            rw [List.length_append] at i2
            rw [i2]
            have e : r.rxCount + 1#16 + BitVec.ofNat 16 bytes.length = r.rxCount + (BitVec.ofNat 16 bytes.length + 1#16) := by
              rw [add_assoc, add_comm (1#16)]
            rw [e, BitVec.ofNat_add, List.length_append]
      · have ho : offeredByte (r.retLen.toNat - r.rxCount.toNat) p = [] := by
          simp [absorbs] at hab; simp [offeredByte]; intro h1; have := hab h1; omega
        have IH := ih r j h (fun q hq => hr q (by simp [hq]))
        rw [ho]
        simp only [List.length_nil, Nat.sub_zero, List.nil_append]
        split
        · rename_i hx
          split at hx
          · rename_i hy
            rw [hy] at IH
            intro haa
            obtain ⟨r', e1, e2, e3⟩ := IH haa
            refine ⟨r', ?_, e2, e3⟩
            rw [runUntilIdle_cons (r' := r) hs (by simp [nextRegs, hp, h, recvRegs, hab, endReadRegs, hd])]
            simpa [emitted, h, hp, hd] using e1
          · cases hx
        · rename_i s rest hx
          split at hx
          · cases hx
          · rename_i bytes rest' hy
            simp at hx
            obtain ⟨rfl, rfl⟩ := hx
            rw [hy] at IH
            intro hw hle
            obtain ⟨i1, i2⟩ := IH (by omega) (by omega)
            refine ⟨i1, ?_⟩
            rw [runUntilIdle_cons (r' := r) hs (by simp [nextRegs, hp, h, recvRegs, hab, endReadRegs, hd])]
            simp only [emitted, h, hp, hd]
            simpa using i2

/-- PARSE, COMPARE and DONE: the result is recorded and reported, and the block is idle. -/
theorem tail_phase (a d : Nat) (p1 p2 p3 : PortIn) (rest : List PortIn) (r : Regs) (j : List Event) (h : r.seq = .parse)
    (h1 : p1.rst = false) (h2 : p2.rst = false) (h3 : p3.rst = false) :
    runUntilIdle (p1 :: p2 :: p3 :: rest).length ⟨r, a, p1 :: p2 :: p3 :: rest, d, j⟩ =
      .next ⟨{ compareRegs (parseRegs r) with seq := .idle }, a, rest, d,
        j ++ [.reported (reportOf (compareRegs (parseRegs r)).res), .commandEnded]⟩ := by
  rw [runUntilIdle_cons (r' := parseRegs r) (by simp [h]) (by simp [nextRegs, h1, h])]
  rw [runUntilIdle_cons (r' := compareRegs (parseRegs r)) (by simp [parseRegs]) (by simp [nextRegs, h2, parseRegs])]
  rw [runUntilIdle_cons (r' := { compareRegs (parseRegs r) with seq := .idle }) (by simp [compareRegs]) (by simp [nextRegs, h3, compareRegs, doneRegs, goto])]
  rw [runUntilIdle_idle rfl]
  simp [emitted, h, parseRegs, compareRegs, outputs]


end Sys2Proof.Laws
end

