-- ==== Sys2Proof/Laws/Transport.lean ====
section
/-! SUPPORT. What the transport primitives use up and how much a read gives. -/

namespace Sys2Proof.Laws

open Sys2Proof.Machine

theorem offeredByte_length (m : Nat) (p : PortIn) : (offeredByte m p).length ≤ m := by
  unfold offeredByte
  split
  · simp_all; omega
  · simp

/-- The inputs after a write's answer are the end of the inputs before it. -/
theorem tpWrite_suffix {ps rest : List PortIn} {b : Bool} (h : tpWrite ps = some (b, rest)) : rest <:+ ps := by
  induction ps with
  | nil => simp [tpWrite] at h
  | cons p ps ih =>
    unfold tpWrite at h
    split at h
    · simp at h; exact h.2 ▸ List.suffix_cons _ _
    · split at h
      · simp at h; exact h.2 ▸ List.suffix_cons _ _
      · exact (ih h).trans (List.suffix_cons _ _)

/-- The inputs after a read are the end of the inputs before it, and a read gives at most `m` bytes. -/
theorem tpRead_some {ps rest : List PortIn} {m : Nat} {s : List Byte} (h : tpRead m ps = some (s, rest)) :
    rest <:+ ps ∧ s.length ≤ m := by
  induction ps generalizing m s with
  | nil => simp [tpRead] at h
  | cons p ps ih =>
    have hl := offeredByte_length m p
    unfold tpRead at h
    split at h
    · simp at h; exact ⟨h.2 ▸ List.suffix_cons _ _, h.1 ▸ hl⟩
    · split at h
      · cases h
      · rename_i hx
        simp at h
        obtain ⟨h1, h2⟩ := ih (h.2 ▸ hx)
        exact ⟨h1.trans (List.suffix_cons _ _), by rw [← h.1, List.length_append]; omega⟩

end Sys2Proof.Laws
end

