-- ==== Sys2Proof/Tests/Slice0.lean ====
section
/-! SUPPORT. The model's own tests: ill-formed commands, words written out from the spec, the examples of
95_test_vectors.md, and for every obligation with hypotheses a concrete case that meets them. -/

namespace Sys2Proof.Tests

open Sys2Proof.Machine

/-! ### Small states -/

/-- A transport that is open. -/
def openPorts : PortIn := { quietPorts with tpOpen := true }

/-- A transport that acknowledges a write. -/
def ackPorts : PortIn := { quietPorts with tpWrAck := true }

/-- A transport that reports a failed write. -/
def errPorts : PortIn := { quietPorts with tpWrErr := true }

/-- A transport that offers a byte. -/
def bytePorts (b : Byte) : PortIn := { quietPorts with tpRxValid := true, tpRxByte := b }

/-- A transport that ends a read. -/
def donePorts : PortIn := { quietPorts with tpRdDone := true }

/-- An exchange with one waiting SEND step and this response. -/
def exchange (resp : List Byte) : Exchange where
  accept := quietPorts
  check := openPorts
  build := quietPorts
  waits := [quietPorts]
  answer := ackPorts
  reads := resp.map bytePorts
  last := donePorts
  parse := quietPorts
  compare := quietPorts
  done := quietPorts

/-- The state after reset with a port script. -/
def ready (ps : List PortIn) : State := { State.reset with ports := ps }

/-- The reset registers in a sequencer state. -/
def regsIn (q : SeqState) : Regs := { Regs.reset with seq := q }

/-- Plain fields. -/
def fields : CmdFields where
  rsvHi := 0
  exp := 0
  data := 0
  len := 0
  addr := 0x1000
  rsvLo := 0
  expValid := false
  lenValid := false

/-- The next state of an outcome. -/
def nextOf : Host.Outcome State Fault Refusal → Option State
  | .next s => some s
  | .fault _ => none
  | .refused _ => none

/-- The next registers of a block step. -/
def nextRegsOf : Host.Outcome Regs Fault Refusal → Option Regs
  | .next r => some r
  | .fault _ => none
  | .refused _ => none

/-! ### Well-formedness refuses each kind of ill-formed command -/

theorem test_wf_read : (Instr.read fields).wellFormed = true := by decide
theorem test_wf_write : (Instr.write { fields with data := 7, lenValid := true, len := 0 }).wellFormed = true := by decide
theorem test_wf_reserved_low : (Instr.read { fields with rsvLo := 1 }).wellFormed = false := by decide
theorem test_wf_reserved_high : (Instr.write { fields with rsvHi := 0x8000 }).wellFormed = false := by decide
theorem test_wf_len_unasked : (Instr.read { fields with len := 4 }).wellFormed = false := by decide
theorem test_wf_exp_unasked : (Instr.write { fields with exp := 0x32 }).wellFormed = false := by decide
theorem test_wf_read_data : (Instr.read { fields with data := 1 }).wellFormed = false := by decide

/-! ### Words written out bit by bit from 30_encoding.md rule R61 -/

/-- READ, every field with a pattern of its own. -/
theorem test_decode_read :
    decode (BitVec.ofNat 128 0b10100000000001011100000000000000000000000000001110110000000000000000000000001011000100000000001100001000000011001010101000000000) =
      .ok (.read
        { rsvHi := 0b1010000000000101, exp := 0b11000000000000000000000000000011, data := 0b10110000000000000000000000001011,
          len := 0b0001000000000011, addr := 0b0000100000001100, rsvLo := 0b101010, expValid := true, lenValid := false }) := by
  decide

/-- WRITE, S8: `0000_00000000_DEADBEEF_0000_2000_00_01`. -/
theorem test_decode_write :
    decode (BitVec.ofNat 128 0b00000000000000000000000000000000000000000000000011011110101011011011111011101111000000000000000000100000000000000000000000000001) =
      .ok (.write { fields with data := 0xDEADBEEF, addr := 0x2000 }) := by
  decide

/-- T10: `OP = 0x02` is no instruction, nor is `0x80`. -/
theorem test_decode_illegal :
    decodeTableWord 8 0x02 = none ∧ decodeTableWord 8 0x80 = none ∧ decodeTableWord 8 0 = some (.read { fields with addr := 0 }) := by
  decide

/-! ### Frames and responses (95_test_vectors.md sections 2.1 and 2.2) -/

/-- E9: four data bytes although `length = 2`. -/
theorem test_pack_write : packWrite 0x0001 2 0xCAFE = [0x31, 0xCE, 0x01, 0x00, 0x01, 0x00, 0x02, 0x00, 0x00, 0xCA, 0xFE] := by
  decide

/-- E4. -/
theorem test_pack_read : packRead 0x1000 4 = [0x31, 0xCE, 0x00, 0x10, 0x00, 0x00, 0x04] := by decide

/-- Q1, Q2, Q6 and S4. -/
theorem test_parse_int :
    parseInt [] = none ∧ parseInt [0] = some 0 ∧ parseInt [1, 0, 0, 0, 0] = some (2 ^ 32) ∧ parseInt [0xFF] = some 255 ∧
      parseInt [1, 0] = some 256 := by
  decide

/-! ### One step each (95_test_vectors.md sections 1 and 2.3) -/

/-- S9: READ 0x10, exp=0x10, response 00 00 00 11: received 0x11, mismatch, `STATUS = 0x3A00`. -/
theorem test_read_mismatch :
    (nextOf (exec (.read { fields with addr := 0x10, expValid := true, exp := 0x10 })
        (ready (exchange [0, 0, 0, 0x11]).script))).map (fun t => (statusWord t.regs, t.regs.res.received, t.regs.res.exp)) =
      some (0x3A00#32, 0x11, 0x10#32) := by
  decide

/-- T14: READ of 2 bytes, `AB CD EF` offered: received 0xABCD. -/
theorem test_read_drops_excess :
    (nextOf (exec (.read { fields with addr := 0x40, lenValid := true, len := 2 })
        (ready (exchange [0xAB, 0xCD, 0xEF]).script))).map (fun t => (statusWord t.regs, t.regs.res.received)) =
      some (0x1200#32, 0xABCD) := by
  decide

/-- S8: WRITE 0x2000, 0xDEADBEEF, ack 32: the frame, and `STATUS = 0x3200`. -/
theorem test_write_scenario_b :
    (nextOf (exec (.write { fields with addr := 0x2000, data := 0xDEADBEEF })
        (ready (exchange [0x32]).script))).map (fun t => (statusWord t.regs, t.journal.head?)) =
      some (0x3200#32,
        some (.writeRequested [0x31, 0xCE, 0x01, 0x20, 0x00, 0x00, 0x04, 0xDE, 0xAD, 0xBE, 0xEF])) := by
  decide

/-- T12: WRITE whose frame write fails: `STATUS = 0x0040`, the transport closed, no report. -/
theorem test_write_transport_error :
    (nextOf (exec (.write { fields with addr := 0x2000, data := 0xDEADBEEF })
        (ready [quietPorts, openPorts, quietPorts, errPorts, quietPorts]))).map
          (fun t => (statusWord t.regs, t.journal.drop 1)) =
      some (0x0040#32, [.writeEnded false, .transportClosed, .commandEnded]) := by
  decide

/-- T10: a word with `OP = 0x02`: `STATUS = 0x0120`. -/
theorem test_illegal_op :
    (nextOf (step (ready [commandPorts 0x10000002#128, openPorts, quietPorts]))).map (fun t => statusWord t.regs) =
      some 0x0120#32 := by
  decide

/-- T17: reset in RECV. -/
theorem test_reset_in_recv :
    (nextOf (step { ready [{ quietPorts with rst := true }] with regs := { regsIn .recv with acc := 5, rxCount := 1 } })) =
      some State.reset := by
  decide

/-- T15: `STATUS = 0x0013` while the first command after reset is in SEND. -/
theorem test_status_in_send : statusWord (regsIn .send) = 0x0013#32 := by decide

/-- The host's word for a row runs as the first instruction after reset, to a completed result. -/
theorem test_fetch_word :
    (nextOf (step (State.reset.withFetchWord 128 0x10000000))).map (fun t => (t.regs.seq, t.regs.res.valid, t.regs.res.rw)) =
        some (.idle, true, 0#8) ∧
      (nextOf (step (State.reset.withFetchWord 8 1))).map (fun t => (t.regs.seq, t.regs.res.valid, t.regs.res.rw)) =
        some (.idle, true, 1#8) := by
  decide

/-! ### For every obligation with hypotheses, a case that meets them (one for each clause) -/

theorem test_witness_EncodeOfDecodeIsTheWord :
    decode 0xFFFF000000000000000000001000FC00#128 = .ok (.read { fields with rsvHi := 0xFFFF, rsvLo := 0x3F }) := by
  decide

theorem test_witness_OpByteSelectsTheInstruction :
    (0x10000000#128).extractLsb' 0 8 = 0x00#8 ∧ (0x20000001#128).extractLsb' 0 8 = 0x01#8 ∧
      (0x10000002#128).extractLsb' 0 8 ≠ 0x00#8 ∧ (0x10000002#128).extractLsb' 0 8 ≠ 0x01#8 ∧
      (0xFF#128).extractLsb' 0 8 ≠ 0x00#8 ∧ (0xFF#128).extractLsb' 0 8 ≠ 0x01#8 := by
  decide

theorem test_witness_WellFormedIsWhatTheAssemblerWrites :
    (Instr.read fields).wellFormed = true ∧ assemble (.read 0x1000 none none) = encode (.read fields) ∧
      ∀ w, Asm.read 0x1000 none none ≠ .raw w :=
  ⟨by decide, by decide, nofun⟩

theorem test_witness_UnspecifiedOperandsTakeTheirDefaults : ({ fields with expValid := true }).expValid = true ∧
    fields.expValid = false := by decide

theorem test_witness_EqualOperandsRunAlike :
    (0xFFFF000000000000000000001000FC00#128) ≠ 0x10000000#128 ∧
      operandsOf 0xFFFF000000000000000000001000FC00#128 = operandsOf 0x10000000#128 := by
  decide

/-- BUILD with a READ latched, `CW` being its word. -/
def building : State :=
  { State.reset with regs := { regsIn .build with cw := encode (.read fields) } }

theorem building_inv : MachineInv building where
  countBound := by decide
  countFits := by decide
  accRange := by decide
  causeOfConfiguration := by decide
  errorHasClass := by decide
  classAtEnd := by decide
  buildLegal := by decide
  commandOfLatch := by decide
  frameOfCommand := .inl (by decide)
  sendCleared := by decide
  parsed := by decide
  recorded := by decide
  result :=
    { untouched := by decide
      rwLegal := by decide
      writeExpects := by decide
      expZero := by decide
      failedIffNoValue := by decide
      receivedZero := by decide
      receivedFits := Nat.two_pow_pos _
      mismatchExact := by decide }

theorem test_witness_PackDispatchesOnRw :
    MachineInv building ∧ building.regs.seq = .build ∧ (0x02#8 ≠ 0x00#8 ∧ 0x02#8 ≠ 0x01#8) :=
  ⟨building_inv, by decide⟩

theorem test_witness_ParseInt : [0x01#8, 0x00#8] ≠ [] ∧ [0x00#8] ≠ [] := by decide

/-- Q9: `AB CD EF` offered with `RET_LEN = 2`, the last byte with `tp_rd_done`. -/
theorem test_witness_RecvRealisesParseInt :
    let reads := [bytePorts 0xAB, bytePorts 0xCD]
    let last := { bytePorts 0xEF with tpRdDone := true }
    let s : State := { ready (reads ++ last :: [quietPorts]) with regs := { regsIn .recv with retLen := 2 } }
    s.regs.seq = .recv ∧ s.regs.acc = 0 ∧ s.regs.rxCount = 0#16 ∧ s.ports = reads ++ last :: [quietPorts] ∧
      (∀ p ∈ reads, p.rst = false ∧ p.tpRdDone = false) ∧ last.rst = false ∧ last.tpRdDone = true ∧
      (responseIn s.regs.retLen (reads ++ [last])).length ≤ s.accBits / 8 ∧
      responseIn s.regs.retLen (reads ++ [last]) = [0xAB, 0xCD] := by
  decide

theorem test_witness_IdleAcceptsAPresentedCommand :
    (regsIn .idle).seq = .idle ∧ (commandPorts 2#128).rst = false ∧ (commandPorts 2#128).cmdValid = true ∧
      quietPorts.rst = false ∧ quietPorts.cmdValid = false := by
  decide

theorem test_witness_CheckRejectsBeforeAnyIO :
    let r (w : CmdWord) : Regs := { regsIn .check with cw := w }
    (r 2#128).seq = .check ∧ quietPorts.rst = false ∧ quietPorts.tpOpen = false ∧ openPorts.rst = false ∧
      openPorts.tpOpen = true ∧ (r 2#128).cw.extractLsb' 0 8 ≠ 0x00#8 ∧ (r 2#128).cw.extractLsb' 0 8 ≠ 0x01#8 ∧
      (r 0#128).cw.extractLsb' 0 8 = 0x00#8 ∧ (r 1#128).cw.extractLsb' 0 8 = 0x01#8 := by
  decide

theorem test_witness_BuildWritesCommandAndFrame :
    (regsIn .build).seq = .build ∧ quietPorts.rst = false ∧ (regsIn .build).cw.extractLsb' 0 8 = 0x00#8 ∧
      ({ regsIn .build with cw := encode (.write fields) } : Regs).cw.extractLsb' 0 8 = 0x01#8 := by
  decide

theorem test_witness_SendWaitsForTheTransport :
    (regsIn .send).seq = .send ∧ errPorts.rst = false ∧ errPorts.tpWrErr = true ∧
      (ackPorts.rst = false ∧ ackPorts.tpWrErr = false ∧ ackPorts.tpWrAck = true) ∧
      (quietPorts.rst = false ∧ quietPorts.tpWrErr = false ∧ quietPorts.tpWrAck = false) := by
  decide

/-- The clauses meet at `RX_COUNT = RET_LEN`: at 65534 of 65535 bytes a byte is absorbed, at 65535 it is dropped. A 32-bit
build holds the fourth byte and not the fifth. -/
theorem test_witness_RecvAbsorbsOfferedBytes :
    let r (k : Half) : Regs := { regsIn .recv with retLen := 65535, rxCount := k }
    (r 0).seq = .recv ∧ (bytePorts 1).rst = false ∧ (bytePorts 1).tpRxValid = true ∧
      (r 65534).rxCount.toNat < (r 65534).retLen.toNat ∧ (r 65535).retLen.toNat ≤ (r 65535).rxCount.toNat ∧
      quietPorts.tpRxValid = false ∧
      (nextRegsOf (nextRegs 524280 (bytePorts 1) (r 65535))) = some (r 65535) ∧
      (r 65534).rxCount.toNat + 1 ≤ 524280 / 8 ∧ (r 3).rxCount.toNat + 1 ≤ 32 / 8 ∧ ¬ (r 4).rxCount.toNat + 1 ≤ 32 / 8 := by
  decide

theorem test_witness_ParseSetsTheWorkingFlags :
    (regsIn .parse).seq = .parse ∧ quietPorts.rst = false ∧ (regsIn .parse).rxCount = 0#16 ∧
      ({ regsIn .parse with rxCount := 1 } : Regs).rxCount ≠ 0#16 ∧
      (nextRegsOf (nextRegs 524280 quietPorts { regsIn .parse with rxCount := 1 })).map (·.pRecvValid) = some true := by
  decide

theorem test_witness_ReturnLengthOfReadAndWrite :
    (regsIn .recv).retLen = returnLength 0x00#8 0#16 ∧ (bytePorts 1).tpRxValid = true := by
  decide

theorem test_witness_CompareRecordsTheResult :
    (regsIn .compare).seq = .compare ∧ quietPorts.rst = false ∧ (regsIn .recv).seq ≠ .compare ∧
      nextRegsOf (nextRegs 524280 donePorts (regsIn .recv)) = some (regsIn .parse) := by
  decide

theorem test_witness_DoneReportsAndReturnsToIdle : (regsIn .done).seq = .done ∧ quietPorts.rst = false := by decide

theorem test_witness_ErrorClosesAndReturnsToIdle : (regsIn .error).seq = .error ∧ quietPorts.rst = false := by decide

/-- Reset in SEND, in RECV and in IDLE; T17. -/
theorem test_witness_ResetClearsEveryRegister :
    let p : PortIn := { quietPorts with rst := true }
    let s (q : SeqState) : State := { ready [p] with regs := regsIn q }
    p.rst = true ∧ (regsIn .send).seq = .send ∧ (regsIn .recv).seq = .recv ∧
      ∀ q ∈ [SeqState.send, .recv, .idle],
        (nextPorts (s q)).rst = true ∧ (s q).regs.seq ≠ .done ∧ (s q).regs.seq ≠ .error := by
  decide

theorem test_witness_NextStateTable :
    nextRegsOf (nextRegs 524280 { quietPorts with rst := true } (regsIn .send)) = some (regsIn .idle) ∧
      nextRegsOf (nextRegs 524280 quietPorts (regsIn .send)) = some (regsIn .send) ∧
      nextRegsOf (nextRegs 524280 quietPorts (regsIn .error)) = some (regsIn .idle) ∧ legalOp (regsIn .build).cw = true := by
  decide

/-- Two different inputs of a SEND step that agree in what SEND uses. -/
theorem test_witness_InputsOutsideTheirStateAreIgnored :
    let q := { ackPorts with cmdValid := true, tpRdDone := true }
    ackPorts ≠ q ∧ ackPorts.rst = q.rst ∧ (regsIn .send).seq = .send ∧
      (ackPorts.tpWrAck = q.tpWrAck ∧ ackPorts.tpWrErr = q.tpWrErr) := by
  decide

/-- A next state exists on every edge the outputs speak of: an accepted command, a rising write and read request, a step
that leaves DONE, and one that leaves ERROR after a TransportError, where the close is on the port; in the IDLE after it the
close is gone. -/
theorem test_witness_StatusAndResultOutputs :
    let err : Regs := { regsIn .error with eClass := .transport }
    (nextRegsOf (nextRegs 524280 (commandPorts 1#128) (regsIn .idle))).map (fun t => (t.seq, t.cw)) = some (.check, 1#128) ∧
      (nextRegsOf (nextRegs 524280 quietPorts (regsIn .build))).map (·.seq) = some .send ∧
      (nextRegsOf (nextRegs 524280 ackPorts (regsIn .send))).map (·.seq) = some .recv ∧
      (nextRegsOf (nextRegs 524280 quietPorts (regsIn .done))).map (·.seq) = some .idle ∧
      (outputs false err).tpClose = true ∧
      (nextRegsOf (nextRegs 524280 quietPorts err)).map (fun t => ((outputs false t).tpClose, (outputs false t).cmdReady)) =
        some (false, true) := by
  decide

theorem test_witness_ReportCarriesDataOrReceived :
    let r : Regs := { regsIn .done with res := { Result.reset with rw := 0x01#8 } }
    r.seq = .done ∧ quietPorts.rst = false ∧ r.res.rw = 0x01#8 ∧ (regsIn .done).seq = .done ∧ (regsIn .done).res.rw = 0x00#8 := by
  decide

/-- S9, with `mm` true. -/
theorem test_witness_ReadRunsToItsResult :
    let f : CmdFields := { fields with addr := 0x10, expValid := true, exp := 0x10 }
    let x := exchange [0, 0, 0, 0x11]
    let s := ready (x.script ++ [quietPorts])
    s.regs.seq = .idle ∧ s.ports = x.script ++ [quietPorts] ∧ x.completes = true ∧
      (4#16 = if f.lenValid then f.len else 4#16) ∧ [0#8, 0#8, 0#8, 0x11#8] = x.response 4#16 ∧
      (x.response 4#16).length ≤ s.accBits / 8 ∧
      (true = true ↔ f.expValid = true ∧ ∃ v, parseInt [0#8, 0#8, 0#8, 0x11#8] = some v ∧ f.exp.toNat ≠ v) :=
  ⟨by decide, by decide, by decide, by decide, by decide, by decide, by simp; decide⟩

/-- S8, with `mm` false. -/
theorem test_witness_WriteRunsToItsResult :
    let f : CmdFields := { fields with addr := 0x2000, data := 0xDEADBEEF }
    let x := exchange [0x32]
    let s := ready (x.script ++ [])
    s.regs.seq = .idle ∧ s.ports = x.script ++ [] ∧ x.completes = true ∧
      (4#16 = if f.lenValid then f.len else 4#16) ∧ (0x32#32 = if f.expValid then f.exp else 0x32#32) ∧
      [0x32#8] = x.response 1#16 ∧ (x.response 1#16).length ≤ s.accBits / 8 ∧
      (false = true ↔ ∃ v, parseInt [0x32#8] = some v ∧ (0x32#32).toNat ≠ v) :=
  ⟨by decide, by decide, by decide, by decide, by decide, by decide, by decide, by simp [parseInt, accumulateByte]⟩

/-- T9 and T11. -/
theorem test_witness_ClosedTransportEndsInConfigurationError :
    let s (w : CmdWord) := ready [commandPorts w, quietPorts, quietPorts]
    ∀ w ∈ [encode (.read fields), encode (.write fields), 0x10000002#128],
      (s w).regs.seq = .idle ∧ (s w).ports = commandPorts w :: quietPorts :: quietPorts :: [] ∧
        (commandPorts w).rst = false ∧ quietPorts.rst = false ∧ quietPorts.tpOpen = false ∧
        (commandPorts w).cmdValid = true ∧ (commandPorts w).cmdWord = w :=
  fun _ _ => ⟨rfl, rfl, rfl, rfl, rfl, rfl, rfl⟩

/-- T10. -/
theorem test_witness_IllegalOpEndsInConfigurationError :
    let a := commandPorts 0x10000002#128
    let s := ready [a, openPorts, quietPorts]
    s.regs.seq = .idle ∧ s.ports = a :: openPorts :: quietPorts :: [] ∧ a.rst = false ∧ openPorts.rst = false ∧
      quietPorts.rst = false ∧ openPorts.tpOpen = true ∧ a.cmdValid = true ∧ a.cmdWord.extractLsb' 0 8 ≠ 0x00#8 ∧
      a.cmdWord.extractLsb' 0 8 ≠ 0x01#8 := by
  decide

/-- T12 and T13, after one waiting step. -/
theorem test_witness_FailedWriteEndsInTransportError :
    let i := Instr.write { fields with addr := 0x2000, data := 0xDEADBEEF }
    let answer := { errPorts with tpWrAck := true }
    let s := ready (quietPorts :: openPorts :: quietPorts :: ([quietPorts] ++ answer :: quietPorts :: []))
    let c := operandsOf (encode i)
    s.regs.seq = .idle ∧ s.ports = quietPorts :: openPorts :: quietPorts :: ([quietPorts] ++ answer :: quietPorts :: []) ∧
      (∀ p ∈ s.ports, p.rst = false) ∧ openPorts.tpOpen = true ∧ [quietPorts].all noAnswer = true ∧
      answer.tpWrErr = true ∧
      pack c.rw c.addr c.len c.data = some [0x31, 0xCE, 0x01, 0x20, 0x00, 0x00, 0x04, 0xDE, 0xAD, 0xBE, 0xEF] := by
  decide

/-- S7 to its end; T9, T10 and T12 to their errors. -/
theorem test_witness_StepRulesRealiseTransact :
    let x := exchange [0, 0, 0, 0x2A]
    let s := ready x.script
    let w := encode (.read fields)
    let v := encode (.write fields)
    (s.regs.seq = .idle ∧ s.ports = x.accept :: s.ports.drop 1 ∧ (∀ p ∈ s.ports, p.rst = false) ∧
      (returnLength (operandsOf w).rw (operandsOf w).len).toNat ≤ s.accBits / 8 ∧
      (returnLength (operandsOf v).rw (operandsOf v).len).toNat ≤ s.accBits / 8 ∧
      (returnLength (operandsOf 2#128).rw (operandsOf 2#128).len).toNat ≤ s.accBits / 8) ∧
      transactOn w (s.ports.drop 1) = some (transact w true true [0, 0, 0, 0x2A], []) ∧
      (∀ p ∈ [quietPorts, openPorts, errPorts], p.rst = false) ∧
      transactOn w [quietPorts, quietPorts] = some (.failed .configuration .closed none, []) ∧
      transactOn 2#128 [openPorts, quietPorts] = some (.failed .configuration .badRw none, []) ∧
      transactOn v [openPorts, quietPorts, errPorts, quietPorts] =
        some (.failed .transport .none (some (packWrite 0x1000 4 0)), []) := by
  decide

/-- S7 whose read never ends. -/
theorem test_witness_UnansweredCommandStaysInItsTransaction :
    let s := ready [quietPorts, openPorts, quietPorts, ackPorts, bytePorts 0]
    s.regs.seq = .idle ∧ s.ports = quietPorts :: s.ports.drop 1 ∧ (∀ p ∈ s.ports, p.rst = false) ∧
      s.accBits = Config.defaultAccBits ∧ transactOn (encode (.read fields)) (s.ports.drop 1) = none := by
  decide

/-- T1, with a byte offered. -/
theorem test_witness_ZeroLengthReadIsAReadbackFailure :
    let f : CmdFields := { fields with addr := 4, lenValid := true }
    let x := exchange [0xAB]
    f.lenValid = true ∧ f.len = 0#16 ∧ (ready (x.script ++ [])).regs.seq = .idle ∧
      (ready (x.script ++ [])).ports = x.script ++ [] ∧ x.completes = true := by
  decide

/-- T6 with a second byte offered, and an expected value of 0x100. -/
theorem test_witness_WriteAckIsComparedWithExpected :
    let x := exchange [0x33, 0x44]
    let s := ready (x.script ++ [])
    let f : CmdFields := { fields with expValid := true, exp := 0x100 }
    s.regs.seq = .idle ∧ s.ports = x.script ++ [] ∧ x.completes = true ∧ 8 ≤ s.accBits ∧
      (x.reads ++ [x.last]).filterMap offered = 0x33#8 :: [0x44#8] ∧ fields.expValid = false ∧ f.expValid = true ∧
      0xFF < f.exp.toNat := by
  decide

/-- A READ that ends, a READ that is reset in RECV, and one left waiting in RECV (`n = 0`); in the first the
read request stands behind the write's end, and the report behind the read's end. -/
theorem test_witness_AtMostOneFrameAndOneRead :
    let w := encode (.read fields)
    let waiting := ready [quietPorts, openPorts, quietPorts, ackPorts]
    (ready (exchange [1]).script).regs.seq = .idle ∧ waiting.regs.seq = .idle ∧
      (nextOf (runCommand w (ready (exchange [1]).script))).map (fun t => t.journal.take 4) =
        some [.writeRequested (packRead 0x1000 4), .writeEnded true, .readRequested 4, .readEnded] ∧
      (nextOf (runCommand w
        (ready [quietPorts, openPorts, quietPorts, ackPorts, { quietPorts with rst := true }]))).isSome = true ∧
      ((nextOf (runCommand w waiting)).bind (fun t => nextOf (runUntilIdle 0 t))).map (·.regs.seq) = some .recv := by
  decide

/-- One command for each outcome: completed, CLOSED, BAD_RW, TransportError. -/
theorem test_witness_OutcomeTable :
    (let s := ready (exchange [1]).script
     s.regs.seq = .idle ∧ (nextPorts s).rst = false ∧ (∀ p ∈ s.ports, p.rst = false) ∧
       (nextOf (runCommand 0#128 s)).map (fun t => (t.regs.seq, t.regs.eClass)) = some (.idle, .none)) ∧
      (nextOf (runCommand 0#128 (ready [quietPorts, quietPorts, quietPorts]))).map (fun t => (t.regs.seq, t.regs.eClass)) =
        some (.idle, .configuration) ∧
      (nextOf (runCommand 2#128 (ready [quietPorts, openPorts, quietPorts]))).map (fun t => (t.regs.seq, t.regs.eCause)) =
        some (.idle, .badRw) ∧
      (nextOf (runCommand 1#128 (ready [quietPorts, openPorts, quietPorts, errPorts, quietPorts]))).map
        (fun t => (t.regs.seq, t.regs.eClass)) = some (.idle, .transport) := by
  decide

theorem test_witness_CommandFrame :
    (let s := ready (exchange [1]).script
     s.regs.seq = .idle ∧ (nextPorts s).rst = false ∧ (∀ p ∈ s.ports, p.rst = false) ∧
       (nextOf (exec (.read fields) s)).map (fun t => (t.regs.seq, t.regs.eClass)) = some (.idle, .none)) ∧
      (nextOf (exec (.read fields) (ready [quietPorts, quietPorts, quietPorts]))).map (fun t => (t.regs.seq, t.regs.eClass)) =
        some (.idle, .configuration) ∧
      (nextOf (exec (.write fields) (ready [quietPorts, openPorts, quietPorts, errPorts, quietPorts]))).map
        (fun t => (t.regs.seq, t.regs.eClass)) = some (.idle, .transport) := by
  decide

theorem test_witness_EnteringErrorIsPrecise :
    (regsIn .send).seq ≠ .error ∧
      (nextRegsOf (nextRegs 524280 errPorts (regsIn .send))).map (·.seq) = some .error := by
  decide

theorem test_witness_CommandHoldsAfterBuild :
    afterBuild (regsIn .recv).seq = true ∧ quietPorts.rst = false ∧
      nextRegsOf (nextRegs 524280 quietPorts (regsIn .recv)) = some (regsIn .recv) := by
  decide

theorem test_witness_BusyBlockIgnoresACommand : ({ State.reset with regs := regsIn .send } : State).regs.seq ≠ .idle := by
  decide

/-- Two idle blocks with different pasts. -/
theorem test_witness_TransactionsShareNoState :
    let s := ready (exchange [1]).script
    let u : State := { s with regs := { s.regs with acc := 9, rxCount := 3, eClass := .transport, fbLen := 7 } }
    s ≠ u ∧ s.regs.seq = .idle ∧ u.regs.seq = .idle ∧ s.accBits = u.accBits ∧ s.ports = u.ports ∧ s.drawn = u.drawn ∧
      (nextOf (runCommand 0#128 s)).isSome = true := by
  decide

/-- A 32-bit build refuses a fifth byte. -/
theorem test_witness_TransactionsShareNoState_refused :
    (match runCommand (encode (.read { fields with lenValid := true, len := 5 }))
        { ready (exchange [1, 2, 3, 4, 5]).script with accBits := 32 } with
      | .refused .responseExceedsAccumulator => true
      | _ => false) = true := by
  decide

theorem test_witness_EveryStepKeepsInv :
    MachineInv building ∧ (nextOf (step { building with ports := [quietPorts] })).isSome = true :=
  ⟨building_inv, by decide⟩

theorem test_witness_StepRunsTheDecodedInstruction :
    (let s := ready [commandPorts (encode (.read fields))]
     s.regs.seq = .idle ∧ (nextPorts s).rst = false ∧ (nextPorts s).cmdValid = true ∧
       decode (nextPorts s).cmdWord = .ok (.read fields)) ∧
      (let s := ready [commandPorts 0xFF#128]
       s.regs.seq = .idle ∧ (nextPorts s).rst = false ∧ (nextPorts s).cmdValid = true ∧
         decode (nextPorts s).cmdWord = .error (.illegalOp 0xFF)) ∧
      (building.regs.seq ≠ .idle ∧ (nextPorts (ready [{ quietPorts with rst := true }])).rst = true ∧
        (nextPorts (ready [quietPorts])).cmdValid = false) := by
  decide

theorem test_witness_DefaultBuildNeverStops : State.reset.accBits = Config.defaultAccBits := by decide

/-- RECV of a READ with nothing received yet. -/
def receiving : Regs where
  seq := .recv
  cw := encode (.read fields)
  cmd := operandsOf (encode (.read fields))
  fb := storeFrame (packRead 0x1000 4) frameBufReset
  fbLen := 7
  retLen := 4
  acc := 0
  rxCount := 0
  pRecvValid := false
  pRbf := false
  pMismatch := false
  eClass := .none
  eCause := .none
  res := .reset

theorem receiving_inv : RegsInv 32 receiving where
  countBound := by decide
  countFits := by decide
  accRange := by decide
  causeOfConfiguration := by decide
  errorHasClass := by decide
  classAtEnd := by decide
  buildLegal := by decide
  commandOfLatch := by decide
  frameOfCommand := .inr (by decide)
  sendCleared := by decide
  parsed := by decide
  recorded := by decide
  result :=
    { untouched := by decide
      rwLegal := by decide
      writeExpects := by decide
      expZero := by decide
      failedIffNoValue := by decide
      receivedZero := by decide
      receivedFits := Nat.two_pow_pos _
      mismatchExact := by decide }

/-- At the edge of a 32-bit build: the fourth byte is absorbed exactly, the fifth refused; and a RECV step of the invariant
that is not refused. -/
theorem test_witness_SmallAccumulatorIsRefusedNotTruncated :
    let r (k : Half) : Regs := { regsIn .recv with retLen := 5, rxCount := k, acc := 0xABCDEF }
    (nextRegsOf (nextRegs 32 (bytePorts 1) (r 3))).map (·.acc) = some 0xABCDEF01 ∧
      (nextRegsOf (nextRegs 32 (bytePorts 1) (r 4))).isSome = false ∧
      RegsInv 32 receiving ∧ receiving.seq = .recv ∧ (bytePorts 1).rst = false ∧
      (nextRegsOf (nextRegs 32 (bytePorts 1) receiving)).map (·.acc) = some 1 :=
  ⟨by decide, by decide, receiving_inv, by decide, by decide, by decide⟩

theorem test_witness_UnansweredBlockWaits :
    let s (q : SeqState) : State := { ready ([quietPorts, quietPorts] ++ [ackPorts]) with regs := regsIn q }
    (s .send).ports = [quietPorts, quietPorts] ++ [ackPorts] ∧ (∀ p ∈ [quietPorts, quietPorts], p.rst = false) ∧
      (s .send).regs.seq = .send ∧ (∀ p ∈ [quietPorts, quietPorts], p.tpWrAck = false ∧ p.tpWrErr = false) ∧
      (s .recv).regs.seq = .recv ∧ (∀ p ∈ [quietPorts, quietPorts], p.tpRxValid = false ∧ p.tpRdDone = false) := by
  decide

/-- A step that puts a frame on the wire, from a state with inputs left. -/
theorem test_witness_FramesOnTheWire :
    (nextOf (step { building with ports := [quietPorts] })).map (·.journal) =
      some [.writeRequested [0x31, 0xCE, 0x00, 0x10, 0x00, 0x00, 0x04]] := by
  decide

theorem test_witness_StepKeepsTheBuildAndThePast :
    (nextOf (step (ready [quietPorts, quietPorts]))).isSome = true ∧ (ready [quietPorts, quietPorts]).ports ≠ [] := by
  decide

end Sys2Proof.Tests
end

section
/-! SUPPORT. 00_scope.md: what no step changes in the model's own fields, and that no step of the default build stops. -/

namespace Sys2Proof.Proofs

open Sys2Proof.Machine Sys2Proof.Laws

/-! ### The build, the past and the inputs -/

/-- `t` comes after `s` in one run over the port script: the build and the draw counter are those of `s`, the journal
begins with that of `s`, and what is left of the script is an end of it (log entries 1, 3 and 4). -/
structure KeepsPast (s t : State) : Prop where
  accBits : t.accBits = s.accBits
  journal : s.journal <+: t.journal
  ports : t.ports <:+ s.ports
  drawn : t.drawn = s.drawn

theorem KeepsPast.refl (s : State) : KeepsPast s s := ⟨rfl, List.prefix_rfl, List.suffix_rfl, rfl⟩

theorem KeepsPast.trans {s t u : State} (h : KeepsPast s t) (k : KeepsPast t u) : KeepsPast s u :=
  ⟨k.accBits.trans h.accBits, h.journal.trans k.journal, k.ports.trans h.ports, k.drawn.trans h.drawn⟩

/-- Once its inputs are taken, a block step draws on nothing further. -/
theorem stepWith_keepsPast {p : PortIn} {s t : State} (h : stepWith p s = .next t) : KeepsPast s t := by
  obtain ⟨r, -, rfl⟩ := stepWith_next h
  exact ⟨rfl, List.prefix_append _ _, List.suffix_rfl, rfl⟩

/-- A run bounded by the length of its script takes no free draw. -/
theorem runUntilIdle_keepsPast {s t : State} (h : runUntilIdle s.ports.length s = .next t) : KeepsPast s t :=
  (runUntilIdle_script (P := KeepsPast s)
    (fun _ _ _ _ _ _ _ hs _ _ => hs.trans ⟨rfl, List.prefix_append _ _, List.suffix_cons _ _, rfl⟩)
    s.ports (.refl s) h).1

/-- Every step takes the next inputs and makes one block step with them, after which a command may run on. -/
theorem step_next {s t : State} (h : step s = .next t) :
    ∃ p u, stepWith p (dropPorts s) = .next u ∧ (t = u ∨ runUntilIdle u.ports.length u = .next t) := by
  rcases step_cases s with hb | ⟨w, -, hc⟩
  · exact ⟨nextPorts s, t, hb.symm.trans h, .inl rfl⟩
  · obtain ⟨u, hu, ⟨-, hrun⟩ | ⟨-, rfl⟩⟩ := runCommand_next (hc ▸ h)
    · exact ⟨_, u, hu, .inr hrun⟩
    · exact ⟨_, t, hu, .inl rfl⟩

/-- Beyond the inputs that it takes first, a step keeps the past. -/
theorem step_keepsPast_dropPorts {s t : State} (h : step s = .next t) : KeepsPast (dropPorts s) t := by
  obtain ⟨p, u, hu, rfl | hrun⟩ := step_next h
  · exact stepWith_keepsPast hu
  · exact (stepWith_keepsPast hu).trans (runUntilIdle_keepsPast hrun)

@[simp] theorem dropPorts_ports (s : State) : (dropPorts s).ports = s.ports.tail := by
  obtain ⟨r, a, ps, d, j⟩ := s
  cases ps <;> rfl

theorem dropPorts_drawn {s : State} (h : s.ports ≠ []) : (dropPorts s).drawn = s.drawn := by
  unfold dropPorts
  split
  · contradiction
  · rfl

/-- Settles O60: a step takes the first inputs of the script (`dropPorts`) and keeps the past from there. -/
theorem stepKeepsTheBuildAndThePast : Obligations.StepKeepsTheBuildAndThePast := by
  intro s t h
  obtain ⟨hbuild, hjournal, hports, hdrawn⟩ := step_keepsPast_dropPorts h
  rw [dropPorts_ports] at hports
  refine ⟨by simpa using hbuild, by simpa using hjournal, hports.trans (List.tail_suffix _), fun hne => ⟨?_, ?_⟩⟩
  · rw [hdrawn, dropPorts_drawn hne]
  · calc t.ports.length ≤ s.ports.tail.length := hports.length_le
      _ = s.ports.length - 1 := List.length_tail
      _ < s.ports.length := Nat.sub_one_lt_of_lt (List.length_pos_iff.2 hne)

/-! ### The default build -/

/-- RECV is not refused where the accumulator holds every byte that was asked for: it absorbs no byte with
`RX_COUNT = RET_LEN` (20_memory.md rule R54, 41_response_parser.md rule R103). -/
theorem recvRegs_next_of_retLen_fits {n : Nat} {r : Regs} (p : PortIn) (h : r.retLen.toNat ≤ accumulatorBytes n) :
    ∃ r', recvRegs n p r = .next r' := by
  unfold recvRegs
  split
  · rename_i hab
    obtain ⟨-, hroom⟩ : p.tpRxValid = true ∧ r.rxCount.toNat < r.retLen.toNat := by simpa [absorbs] using hab
    exact ⟨_, if_pos (by omega)⟩
  · exact ⟨_, rfl⟩

/-- RECV is the one state whose step rule can be refused. -/
theorem nextRegs_next_of_retLen_fits {n : Nat} {r : Regs} (p : PortIn) (h : r.retLen.toNat ≤ accumulatorBytes n) :
    ∃ r', nextRegs n p r = .next r' := by
  cases hp : p.rst with
  | true => exact ⟨_, nextRegs_rst r hp⟩
  | false =>
    cases hq : r.seq with
    | idle => exact ⟨_, nextRegs_idle hp hq⟩
    | check => exact ⟨_, nextRegs_check hp hq⟩
    | build => exact ⟨_, nextRegs_build hp hq⟩
    | send => exact ⟨_, nextRegs_send hp hq⟩
    | recv => rw [nextRegs_recv hp hq]; exact recvRegs_next_of_retLen_fits p h
    | parse => exact ⟨_, nextRegs_parse hp hq⟩
    | compare => exact ⟨_, nextRegs_compare hp hq⟩
    | done => exact ⟨_, nextRegs_done hp hq⟩
    | error => exact ⟨_, nextRegs_error hp hq⟩

/-- The default accumulator holds the longest response, 65535 bytes (00_scope.md rule R9, 41_response_parser.md rule
R97). -/
theorem retLen_fits_default (l : Half) : l.toNat ≤ accumulatorBytes Config.defaultAccBits := by
  have := l.isLt
  simp only [accumulatorBytes, Config.defaultAccBits]
  omega

theorem stepWith_default (p : PortIn) {s : State} (h : s.accBits = Config.defaultAccBits) :
    ∃ t, stepWith p s = .next t ∧ t.accBits = Config.defaultAccBits := by
  obtain ⟨r, hr⟩ := nextRegs_next_of_retLen_fits p (h ▸ retLen_fits_default s.regs.retLen)
  have hs : stepWith p s = .next { s with regs := r, journal := s.journal ++ emitted p s.regs r } := by
    simp only [stepWith, hr]
  exact ⟨_, hs, h⟩

theorem blockStep_default {s : State} (h : s.accBits = Config.defaultAccBits) :
    ∃ t, blockStep s = .next t ∧ t.accBits = Config.defaultAccBits :=
  stepWith_default _ (by rwa [dropPorts_accBits])

theorem runUntilIdle_default (n : Nat) {s : State} (h : s.accBits = Config.defaultAccBits) :
    ∃ t, runUntilIdle n s = .next t := by
  induction n generalizing s with
  | zero => exact ⟨s, rfl⟩
  | succ n ih =>
    by_cases hq : s.regs.seq = .idle
    · exact ⟨s, runUntilIdle_idle hq⟩
    · obtain ⟨u, hu, hbits⟩ := blockStep_default h
      simpa only [runUntilIdle, if_neg hq, hu] using ih hbits

theorem runCommand_default (w : CmdWord) {s : State} (h : s.accBits = Config.defaultAccBits) :
    ∃ t, runCommand w s = .next t := by
  obtain ⟨u, hu, hbits⟩ :=
    stepWith_default (presenting w (nextPorts s)) (s := dropPorts s) (by rwa [dropPorts_accBits])
  simp only [runCommand, hu]
  split
  · exact runUntilIdle_default _ hbits
  · exact ⟨u, rfl⟩

/-- Settles O56: a step is a block step or a command's run, and in the default build no block step is refused. -/
theorem defaultBuildNeverStops : Obligations.DefaultBuildNeverStops := by
  intro s h
  rcases step_cases s with hb | ⟨w, -, hc⟩
  · obtain ⟨t, ht, -⟩ := blockStep_default h
    exact ⟨t, hb.trans ht⟩
  · obtain ⟨t, ht⟩ := runCommand_default w h
    exact ⟨t, hc.trans ht⟩

end Sys2Proof.Proofs
end

section
/-! SUPPORT. 10_state.md: the status word and the outputs, what a command leaves unchanged, and that no command depends
on what earlier ones left behind. -/

namespace Sys2Proof.Proofs

open Sys2Proof.Machine Sys2Proof.Laws

/-! ### The status word -/

open BitVec (extractLsb'_append_eq_of_le extractLsb'_append_eq_right extractLsb'_eq_self getLsbD_append getLsbD_ofBool)

theorem statusWord_state (r : Regs) : (statusWord r).extractLsb' 0 4 = seqCode r.seq :=
  extractLsb'_append_eq_right

theorem statusWord_errClass (r : Regs) : (statusWord r).extractLsb' 5 2 = classCode r.eClass := by
  unfold statusWord
  iterate 2 rw [extractLsb'_append_eq_of_le (by decide)]
  exact extractLsb'_append_eq_right

theorem statusWord_errCause (r : Regs) : (statusWord r).extractLsb' 7 2 = causeCode r.eCause := by
  unfold statusWord
  iterate 3 rw [extractLsb'_append_eq_of_le (by decide)]
  exact extractLsb'_append_eq_right

/-- Nine fields lie below the constant 0 of the upper bits. -/
theorem statusWord_upper (r : Regs) : (statusWord r).extractLsb' 14 18 = 0#18 := by
  unfold statusWord
  iterate 9 rw [extractLsb'_append_eq_of_le (by decide)]
  exact extractLsb'_eq_self

/-- The one-bit fields of `STATUS` (10_state.md rule R28). -/
theorem statusWord_bits (r : Regs) :
    (statusWord r).getLsbD 4 = (r.seq != .idle) ∧ (statusWord r).getLsbD 9 = r.res.valid ∧
      (statusWord r).getLsbD 10 = r.res.readbackFailed ∧ (statusWord r).getLsbD 11 = r.res.mismatch ∧
      (statusWord r).getLsbD 12 = r.res.recvValid ∧ (statusWord r).getLsbD 13 = r.res.expValid := by
  unfold statusWord
  simp only [getLsbD_append, getLsbD_ofBool]
  exact ⟨rfl, rfl, rfl, rfl, rfl, rfl⟩

/-- Settles O33: each field is read from where `statusWord` lays it out; the codes and the reset value are closed facts. -/
theorem statusWordFields : Obligations.StatusWordFields := by
  refine ⟨rfl, rfl, rfl, by decide, fun r => ?_⟩
  obtain ⟨hbusy, hvalid, hfailed, hmismatch, hrecv, hexp⟩ := statusWord_bits r
  exact ⟨fun _ => rfl, statusWord_state r, by rw [hbusy, bne_iff_ne], statusWord_errClass r, statusWord_errCause r,
    hvalid, hfailed, hmismatch, hrecv, hexp, statusWord_upper r⟩

/-! ### What one block step can do -/

/-- The frame of a command word's operands, as BUILD packs it (42_transaction_sequencer.md rule R112). -/
def packedFrame (w : CmdWord) : Option (List Byte) :=
  pack (operandsOf w).rw (operandsOf w).addr (operandsOf w).len (operandsOf w).data

/-- The registers as BUILD leaves them where the frame is `f` (42_transaction_sequencer.md rule R112). -/
def builtRegs (f : List Byte) (r : Regs) : Regs :=
  { r with
    cmd := operandsOf r.cw
    fb := storeFrame f r.fb
    fbLen := BitVec.ofNat 4 f.length
    retLen := returnLength (operandsOf r.cw).rw (operandsOf r.cw).len
    acc := 0
    rxCount := 0#16
    seq := .send }

theorem buildRegs_of_some {r : Regs} {f : List Byte} (h : packedFrame r.cw = some f) : buildRegs r = builtRegs f r := by
  unfold packedFrame at h
  simp only [buildRegs, h, builtRegs]

theorem buildRegs_of_none {r : Regs} (h : packedFrame r.cw = none) :
    buildRegs r = raiseError .configuration .badRw r := by
  unfold packedFrame at h
  simp only [buildRegs, h]

/-- What RECV does with the byte port before it looks at `tp_rd_done` (42_transaction_sequencer.md rule R115). -/
def AbsorbMove (p : PortIn) (r r₁ : Regs) : Prop :=
  absorbs p r = true ∧ r₁ = absorbByte p.tpRxByte r ∨ absorbs p r = false ∧ r₁ = r

/-- Everything that one block step can do to the registers, one constructor per branch of the step rules
(42_transaction_sequencer.md rules R110 to R120, 70_reset_and_hazards.md rule R171). -/
inductive BlockMove (p : PortIn) (r : Regs) : Regs → Prop
  | reset (hrst : p.rst = true) : BlockMove p r .reset
  | idles (hrst : p.rst = false) (hq : r.seq = .idle) (hv : p.cmdValid = false) : BlockMove p r r
  | accepts (hrst : p.rst = false) (hq : r.seq = .idle) (hv : p.cmdValid = true) :
      BlockMove p r (acceptCommand p.cmdWord r)
  | findsClosed (hrst : p.rst = false) (hq : r.seq = .check) (ho : p.tpOpen = false) :
      BlockMove p r (raiseError .configuration .closed r)
  | rejects (hrst : p.rst = false) (hq : r.seq = .check) (ho : p.tpOpen = true) (hl : legalOp r.cw = false) :
      BlockMove p r (raiseError .configuration .badRw r)
  | checks (hrst : p.rst = false) (hq : r.seq = .check) (ho : p.tpOpen = true) (hl : legalOp r.cw = true) :
      BlockMove p r (goto .build r)
  | builds (hrst : p.rst = false) (hq : r.seq = .build) (f : List Byte) (hf : packedFrame r.cw = some f) :
      BlockMove p r (builtRegs f r)
  | packFails (hrst : p.rst = false) (hq : r.seq = .build) (hf : packedFrame r.cw = none) :
      BlockMove p r (raiseError .configuration .badRw r)
  | writeFails (hrst : p.rst = false) (hq : r.seq = .send) (he : p.tpWrErr = true) :
      BlockMove p r (raiseError .transport .none r)
  | writeSucceeds (hrst : p.rst = false) (hq : r.seq = .send) (he : p.tpWrErr = false) (ha : p.tpWrAck = true) :
      BlockMove p r (goto .recv r)
  | writeWaits (hrst : p.rst = false) (hq : r.seq = .send) (he : p.tpWrErr = false) (ha : p.tpWrAck = false) :
      BlockMove p r r
  | reads (hrst : p.rst = false) (hq : r.seq = .recv) {r₁ : Regs} (h₁ : AbsorbMove p r r₁) (hd : p.tpRdDone = false) :
      BlockMove p r r₁
  | endsRead (hrst : p.rst = false) (hq : r.seq = .recv) {r₁ : Regs} (h₁ : AbsorbMove p r r₁) (hd : p.tpRdDone = true) :
      BlockMove p r (goto .parse r₁)
  | parses (hrst : p.rst = false) (hq : r.seq = .parse) : BlockMove p r (parseRegs r)
  | compares (hrst : p.rst = false) (hq : r.seq = .compare) : BlockMove p r (compareRegs r)
  | finishes (hrst : p.rst = false) (hq : r.seq = .done) : BlockMove p r (doneRegs r)
  | leavesError (hrst : p.rst = false) (hq : r.seq = .error) : BlockMove p r (leaveError r)

theorem idleRegs_move {p : PortIn} {r : Regs} (hrst : p.rst = false) (hq : r.seq = .idle) :
    BlockMove p r (idleRegs p r) := by
  unfold idleRegs
  split
  · exact .accepts hrst hq ‹_›
  · rename_i hv; exact .idles hrst hq (by simpa using hv)

theorem checkRegs_move {p : PortIn} {r : Regs} (hrst : p.rst = false) (hq : r.seq = .check) :
    BlockMove p r (checkRegs p r) := by
  unfold checkRegs
  split
  · rename_i ho; exact .findsClosed hrst hq (by simpa using ho)
  · rename_i ho
    split
    · exact .checks hrst hq (by simpa using ho) ‹_›
    · rename_i hl; exact .rejects hrst hq (by simpa using ho) (by simpa using hl)

theorem buildRegs_move {p : PortIn} {r : Regs} (hrst : p.rst = false) (hq : r.seq = .build) :
    BlockMove p r (buildRegs r) := by
  cases hf : packedFrame r.cw with
  | none => rw [buildRegs_of_none hf]; exact .packFails hrst hq hf
  | some f => rw [buildRegs_of_some hf]; exact .builds hrst hq f hf

theorem sendRegs_move {p : PortIn} {r : Regs} (hrst : p.rst = false) (hq : r.seq = .send) :
    BlockMove p r (sendRegs p r) := by
  unfold sendRegs
  split
  · exact .writeFails hrst hq ‹_›
  · rename_i he
    split
    · exact .writeSucceeds hrst hq (by simpa using he) ‹_›
    · rename_i ha; exact .writeWaits hrst hq (by simpa using he) (by simpa using ha)

theorem endReadRegs_move {p : PortIn} {r r₁ : Regs} (hrst : p.rst = false) (hq : r.seq = .recv)
    (h₁ : AbsorbMove p r r₁) : BlockMove p r (endReadRegs p r₁) := by
  unfold endReadRegs
  split
  · exact .endsRead hrst hq h₁ ‹_›
  · rename_i hd; exact .reads hrst hq h₁ (by simpa using hd)

theorem recvRegs_move {n : Nat} {p : PortIn} {r r' : Regs} (hrst : p.rst = false) (hq : r.seq = .recv)
    (h : recvRegs n p r = .next r') : BlockMove p r r' := by
  obtain ⟨hab, -, rfl⟩ | ⟨hab, rfl⟩ := recvRegs_next h
  · exact endReadRegs_move hrst hq (.inl ⟨hab, rfl⟩)
  · exact endReadRegs_move hrst hq (.inr ⟨hab, rfl⟩)

/-- A block step that has a next state made one of the moves. -/
theorem nextRegs_move {n : Nat} {p : PortIn} {r r' : Regs} (h : nextRegs n p r = .next r') : BlockMove p r r' := by
  cases hp : p.rst with
  | true => rw [nextRegs_rst r hp] at h; cases h; exact .reset hp
  | false =>
    cases hq : r.seq with
    | idle => rw [nextRegs_idle hp hq] at h; cases h; exact idleRegs_move hp hq
    | check => rw [nextRegs_check hp hq] at h; cases h; exact checkRegs_move hp hq
    | build => rw [nextRegs_build hp hq] at h; cases h; exact buildRegs_move hp hq
    | send => rw [nextRegs_send hp hq] at h; cases h; exact sendRegs_move hp hq
    | recv => rw [nextRegs_recv hp hq] at h; exact recvRegs_move hp hq h
    | parse => rw [nextRegs_parse hp hq] at h; cases h; exact .parses hp hq
    | compare => rw [nextRegs_compare hp hq] at h; cases h; exact .compares hp hq
    | done => rw [nextRegs_done hp hq] at h; cases h; exact .finishes hp hq
    | error => rw [nextRegs_error hp hq] at h; cases h; exact .leavesError hp hq

theorem AbsorbMove.seq {p : PortIn} {r r₁ : Regs} (h : AbsorbMove p r r₁) : r₁.seq = r.seq := by
  obtain ⟨-, rfl⟩ | ⟨-, rfl⟩ := h <;> rfl

/-! ### The outputs and the journal -/

/-- CHECK is entered by accepting a command, and in no other way (42_transaction_sequencer.md rule R110). -/
theorem BlockMove.seq_check_iff {p : PortIn} {r r' : Regs} (h : BlockMove p r r') :
    r'.seq = .check ↔ p.cmdValid = true ∧ r.seq = .idle ∧ p.rst = false := by
  cases h with
  | reads _ hq h₁ => simp [h₁.seq, hq]
  | _ => simp_all [builtRegs, Regs.reset]

/-- SEND is entered from BUILD only (42_transaction_sequencer.md rule R112). -/
theorem BlockMove.build_of_seq_send {p : PortIn} {r r' : Regs} (h : BlockMove p r r') (hs : r'.seq = .send) :
    r.seq = .send ∨ r.seq = .build := by
  cases h with
  | reads _ hq h₁ => simp [h₁.seq, hq] at hs
  | _ => simp_all [builtRegs, Regs.reset]

/-- RECV is entered where a write succeeds, and in no other way (42_transaction_sequencer.md rule R114). -/
theorem BlockMove.seq_recv_iff {p : PortIn} {r r' : Regs} (h : BlockMove p r r') (hr : r.seq ≠ .recv) :
    r'.seq = .recv ↔ r.seq = .send ∧ p.rst = false ∧ p.tpWrErr = false ∧ p.tpWrAck = true := by
  cases h with
  | reads _ hq => exact absurd hq hr
  | _ => simp_all [builtRegs, Regs.reset]

/-- In SEND the journal is told of the answer and of the request it leads to, and of nothing that ends a command. -/
theorem emitted_send {p : PortIn} {r : Regs} (r' : Regs) (hq : r.seq = .send) :
    emitted p r r' =
      if p.rst then [] else if p.tpWrErr then [.writeEnded false]
      else if p.tpWrAck then [.writeEnded true, .readRequested r'.retLen] else [] := by
  simp only [emitted, hq]

theorem transportClosed_mem_emitted (p : PortIn) (r r' : Regs) :
    Event.transportClosed ∈ emitted p r r' ↔ (outputs p.rst r).tpClose = true := by
  cases hq : r.seq with
  | send => rw [emitted_send r' hq]; split_ifs <;> simp [outputs, hq]
  | _ => simp [emitted, outputs, hq]

theorem reported_mem_emitted (p : PortIn) (r r' : Regs) (x : Report) :
    Event.reported x ∈ emitted p r r' ↔ (outputs p.rst r).rptValid = true ∧ x = (outputs p.rst r).rpt := by
  cases hq : r.seq with
  | send => rw [emitted_send r' hq]; split_ifs <;> simp [outputs, hq]
  | _ => simp [emitted, outputs, hq]

theorem commandEnded_mem_emitted (p : PortIn) (r r' : Regs) :
    Event.commandEnded ∈ emitted p r r' ↔ (outputs p.rst r).rspValid = true := by
  cases hq : r.seq with
  | send => rw [emitted_send r' hq]; split_ifs <;> simp [outputs, hq]
  | _ => simp [emitted, outputs, hq]

theorem writeRequested_mem_emitted (p : PortIn) (r r' : Regs) (f : List Byte) :
    Event.writeRequested f ∈ emitted p r r' ↔ r.seq = .build ∧ r'.seq = .send ∧ f = presentedFrame r' := by
  cases hq : r.seq with
  | send => rw [emitted_send r' hq]; split_ifs <;> simp
  | _ => simp [emitted, hq]

theorem readRequested_mem_emitted (p : PortIn) (r r' : Regs) (m : Half) :
    Event.readRequested m ∈ emitted p r r' ↔
      (r.seq = .send ∧ p.rst = false ∧ p.tpWrErr = false ∧ p.tpWrAck = true) ∧ m = r'.retLen := by
  cases hq : r.seq with
  | send => rw [emitted_send r' hq]; split_ifs <;> simp_all
  | _ => simp [emitted, hq]

/-- The write request rises where SEND is entered, with the frame on the port (10_state.md rule R32). -/
theorem BlockMove.writeRequested_iff {p : PortIn} {r r' : Regs} (h : BlockMove p r r') (f : List Byte) :
    Event.writeRequested f ∈ emitted p r r' ↔ r.seq ≠ .send ∧ r'.seq = .send ∧ f = presentedFrame r' := by
  rw [writeRequested_mem_emitted]
  constructor
  · rintro ⟨hb, hs, rfl⟩
    exact ⟨by simp [hb], hs, rfl⟩
  · rintro ⟨hne, hs, rfl⟩
    exact ⟨(h.build_of_seq_send hs).resolve_left hne, hs, rfl⟩

/-- The read request rises where RECV is entered, with `RET_LEN` on the port (10_state.md rule R32). -/
theorem BlockMove.readRequested_iff {p : PortIn} {r r' : Regs} (h : BlockMove p r r') (m : Half) :
    Event.readRequested m ∈ emitted p r r' ↔ r.seq ≠ .recv ∧ r'.seq = .recv ∧ m = r'.retLen := by
  rw [readRequested_mem_emitted]
  constructor
  · rintro ⟨hack, rfl⟩
    have hne : r.seq ≠ .recv := by simp [hack.1]
    exact ⟨hne, (h.seq_recv_iff hne).2 hack, rfl⟩
  · rintro ⟨hne, hs, rfl⟩
    exact ⟨(h.seq_recv_iff hne).1 hs, rfl⟩

theorem classCode_eq_two_iff (c : ErrClass) : classCode c = 2#2 ↔ c = .transport := by
  cases c <;> decide

/-- Accepting a command latches the word that is presented (10_state.md rule R31). -/
theorem BlockMove.cw_of_seq_check {p : PortIn} {r r' : Regs} (h : BlockMove p r r') (hs : r'.seq = .check) :
    r'.cw = p.cmdWord := by
  obtain ⟨hv, hq, hrst⟩ := h.seq_check_iff.1 hs
  cases h <;> simp_all

/-- Settles O34: the outputs are read off the registers, and the journal's events are those of the moves that a block step
can make. -/
theorem statusAndResultOutputs : Obligations.StatusAndResultOutputs := by
  refine ⟨fun rst r => ⟨⟨rfl, rfl, rfl, rfl, rfl, rfl, rfl, rfl, rfl, rfl⟩, ⟨rfl, rfl, rfl, rfl⟩, ?_⟩,
    fun n p r r' h => ?_⟩
  · simp [outputs, classCode_eq_two_iff]
  · have hm := nextRegs_move h
    refine ⟨?_, hm.cw_of_seq_check, transportClosed_mem_emitted p r r', reported_mem_emitted p r r',
      commandEnded_mem_emitted p r r', fun f => ?_, fun m => ?_⟩
    · simpa [outputs] using hm.seq_check_iff
    · simpa [outputs] using hm.writeRequested_iff f
    · simpa [outputs] using hm.readRequested_iff m

/-! ### What a command leaves unchanged -/

/-- An idle block once it has accepted the command `w` (42_transaction_sequencer.md rule R110). -/
def acceptedState (w : CmdWord) (s : State) : State := { dropPorts s with regs := acceptCommand w s.regs }

@[simp] theorem acceptedState_accBits (w : CmdWord) (s : State) : (acceptedState w s).accBits = s.accBits :=
  dropPorts_accBits s
@[simp] theorem acceptedState_ports (w : CmdWord) (s : State) : (acceptedState w s).ports = s.ports.tail :=
  dropPorts_ports s

/-- From an idle block without a reset, a command is accepted and runs on from CHECK. -/
theorem runCommand_idle {w : CmdWord} {s : State} (hq : s.regs.seq = .idle) (hp : (nextPorts s).rst = false) :
    runCommand w s = runUntilIdle (acceptedState w s).ports.length (acceptedState w s) := by
  simp [acceptedState, runCommand, stepWith, nextRegs, idleRegs, emitted, hp, hq]

/-- `FB[7..10]`, the bytes that a read frame does not reach (10_state.md rule R21). -/
def SameBufferTail (b b' : FrameBuf) : Prop := b'.b7 = b.b7 ∧ b'.b8 = b.b8 ∧ b'.b9 = b.b9 ∧ b'.b10 = b.b10

theorem storeFrame_packRead_tail (a l : Half) (b : FrameBuf) : SameBufferTail b (storeFrame (packRead a l) b) :=
  ⟨rfl, rfl, rfl, rfl⟩

theorem packedFrame_read {w : CmdWord} (h : opField w = Config.rwRead) :
    packedFrame w = some (packRead (operandsOf w).addr (operandsOf w).len) := if_pos h

/-- Every register but `STATE`, `CW` and `E_*` is as before. -/
def OnlyLatchAndErrorWritten (r₀ r : Regs) : Prop :=
  r = { r₀ with seq := r.seq, cw := r.cw, eClass := r.eClass, eCause := r.eCause }

theorem OnlyLatchAndErrorWritten.trans {r₀ r r' : Regs} (h : OnlyLatchAndErrorWritten r₀ r)
    (h' : OnlyLatchAndErrorWritten r r') : OnlyLatchAndErrorWritten r₀ r' := by
  rw [OnlyLatchAndErrorWritten] at h h'
  rw [h', h]
  rfl

/-- A frame has been built and no response taken in: the accumulator is cleared, the working flags and the results are as
before. -/
def BuiltOnly (r₀ r : Regs) : Prop :=
  r.pRecvValid = r₀.pRecvValid ∧ r.pRbf = r₀.pRbf ∧ r.pMismatch = r₀.pMismatch ∧ r.res = r₀.res ∧ r.acc = 0 ∧
    r.rxCount = 0#16

theorem OnlyLatchAndErrorWritten.builtOnly {r₀ r : Regs} (h : OnlyLatchAndErrorWritten r₀ r) (f : List Byte) :
    BuiltOnly r₀ (builtRegs f r) := by
  rw [OnlyLatchAndErrorWritten] at h
  rw [h]
  exact ⟨rfl, rfl, rfl, rfl, rfl, rfl⟩

/-- BUILD of a READ stores seven bytes. -/
theorem builtRegs_tail {f : List Byte} {r : Regs} (hf : packedFrame r.cw = some f) (ho : opField r.cw = Config.rwRead) :
    SameBufferTail r.fb (builtRegs f r).fb := by
  obtain rfl : packRead _ _ = f := by simpa [packedFrame_read ho] using hf
  exact storeFrame_packRead_tail _ _ _

/-- What holds along the run of the command `w` that was accepted with the registers `r₀`: an error can only be entered
from a state that has written no more than the error's frame allows. -/
structure CommandPath (w : CmdWord) (r₀ r : Regs) : Prop where
  latch : r.cw = w
  tail : opField w = Config.rwRead → SameBufferTail r₀.fb r.fb
  noClass : r.seq ≠ .error → r.seq ≠ .idle → r.eClass = .none
  unbuilt : r.seq = .check ∨ r.seq = .build ∨ r.eClass = .configuration → OnlyLatchAndErrorWritten r₀ r
  built : r.seq = .send ∨ r.eClass = .transport → BuiltOnly r₀ r

theorem acceptCommand_path (w : CmdWord) (r : Regs) : CommandPath w r (acceptCommand w r) where
  latch := rfl
  tail _ := ⟨rfl, rfl, rfl, rfl⟩
  noClass _ _ := rfl
  unbuilt _ := rfl
  built h := by simp at h

/-- A move that keeps `CW`, the frame buffer and a class that is not set, and does not lead back before RECV, keeps the
path. -/
theorem CommandPath.of_noClass {w : CmdWord} {r₀ r r' : Regs} (h : CommandPath w r₀ r) (hcw : r'.cw = r.cw)
    (hfb : r'.fb = r.fb) (hclass : r'.eClass = .none) (hq : r'.seq ≠ .check ∧ r'.seq ≠ .build ∧ r'.seq ≠ .send) :
    CommandPath w r₀ r' where
  latch := hcw.trans h.latch
  tail ho := hfb ▸ h.tail ho
  noClass _ _ := hclass
  unbuilt := by simp [hclass, hq]
  built := by simp [hclass, hq]

theorem AbsorbMove.keeps {p : PortIn} {r r₁ : Regs} (h : AbsorbMove p r r₁) :
    r₁.cw = r.cw ∧ r₁.fb = r.fb ∧ r₁.eClass = r.eClass := by
  obtain ⟨-, rfl⟩ | ⟨-, rfl⟩ := h <;> exact ⟨rfl, rfl, rfl⟩

/-- A ConfigurationError raised before SEND keeps the path. -/
theorem CommandPath.raiseConfiguration {w : CmdWord} {r₀ r : Regs} (h : CommandPath w r₀ r) (k : CfgCause)
    (hq : r.seq = .check ∨ r.seq = .build) : CommandPath w r₀ (raiseError .configuration k r) where
  latch := h.latch
  tail := h.tail
  noClass := by simp
  unbuilt _ := (h.unbuilt (hq.imp_right .inl)).trans rfl
  built := by simp

/-- A TransportError raised in SEND keeps the path. -/
theorem CommandPath.raiseTransport {w : CmdWord} {r₀ r : Regs} (h : CommandPath w r₀ r) (hq : r.seq = .send) :
    CommandPath w r₀ (raiseError .transport .none r) where
  latch := h.latch
  tail := h.tail
  noClass := by simp
  unbuilt := by simp
  built _ := h.built (.inl hq)

/-- BUILD enters SEND with what it has built. -/
theorem CommandPath.build {w : CmdWord} {r₀ r : Regs} (h : CommandPath w r₀ r) {f : List Byte}
    (hf : packedFrame r.cw = some f) (hclass : r.eClass = .none) (hq : r.seq = .build) :
    CommandPath w r₀ (builtRegs f r) := by
  have hu : OnlyLatchAndErrorWritten r₀ r := h.unbuilt (.inr (.inl hq))
  refine ⟨h.latch, fun ho => ?_, fun _ _ => hclass, ?_, fun _ => hu.builtOnly f⟩
  · obtain ⟨h7, h8, h9, h10⟩ := builtRegs_tail hf (h.latch ▸ ho)
    obtain ⟨k7, k8, k9, k10⟩ := h.tail ho
    exact ⟨h7.trans k7, h8.trans k8, h9.trans k9, h10.trans k10⟩
  · simp [builtRegs, hclass]

/-- ERROR keeps the class and everything else but `STATE` (42_transaction_sequencer.md rule R120). -/
theorem CommandPath.leaveError {w : CmdWord} {r₀ r : Regs} (h : CommandPath w r₀ r) :
    CommandPath w r₀ (leaveError r) where
  latch := h.latch
  tail := h.tail
  noClass := by simp
  unbuilt hq := (h.unbuilt (.inr (.inr (by simpa using hq)))).trans rfl
  built hq := h.built (.inr (by simpa using hq))

theorem CommandPath.move {w : CmdWord} {r₀ r r' : Regs} {p : PortIn} (h : CommandPath w r₀ r) (hm : BlockMove p r r')
    (hp : p.rst = false) (hi : r.seq ≠ .idle) : CommandPath w r₀ r' := by
  have hnone (hq : r.seq ≠ .error) : r.eClass = .none := h.noClass hq hi
  cases hm with
  | reset hrst => simp [hrst] at hp
  | idles _ hq => exact absurd hq hi
  | accepts _ hq => exact absurd hq hi
  | findsClosed _ hq => exact h.raiseConfiguration .closed (.inl hq)
  | rejects _ hq => exact h.raiseConfiguration .badRw (.inl hq)
  | packFails _ hq => exact h.raiseConfiguration .badRw (.inr hq)
  | checks _ hq =>
    exact ⟨h.latch, h.tail, fun _ _ => hnone (by simp [hq]), fun _ => (h.unbuilt (.inl hq)).trans rfl,
      by simp [hnone, hq]⟩
  | builds _ hq f hf => exact h.build hf (hnone (by simp [hq])) hq
  | writeFails _ hq => exact h.raiseTransport hq
  | writeSucceeds _ hq => exact h.of_noClass rfl rfl (hnone (by simp [hq])) (by simp)
  | writeWaits => exact h
  | reads _ hq h₁ =>
    obtain ⟨hcw, hfb, hclass⟩ := h₁.keeps
    exact h.of_noClass hcw hfb (hclass.trans (hnone (by simp [hq]))) (by simp [h₁.seq, hq])
  | endsRead _ hq h₁ =>
    obtain ⟨hcw, hfb, hclass⟩ := h₁.keeps
    exact h.of_noClass hcw hfb (hclass.trans (hnone (by simp [hq]))) (by simp)
  | parses _ hq => exact h.of_noClass rfl rfl (hnone (by simp [hq])) (by simp)
  | compares _ hq => exact h.of_noClass rfl rfl (hnone (by simp [hq])) (by simp)
  | finishes _ hq => exact h.of_noClass rfl rfl (hnone (by simp [hq])) (by simp)
  | leavesError => exact h.leaveError

/-- The path holds at the end of a command that an idle block runs without a reset. -/
theorem runCommand_path {w : CmdWord} {s t : State} (hq : s.regs.seq = .idle) (hr : NoReset s)
    (h : runCommand w s = .next t) : CommandPath w s.regs t.regs ∧ t.accBits = s.accBits := by
  obtain ⟨hfirst, hrest⟩ := hr
  rw [runCommand_idle hq hfirst] at h
  have hpath := runUntilIdle_script
    (P := fun u => CommandPath w s.regs u.regs ∧ ∀ p ∈ u.ports, p.rst = false)
    (fun r a p ps d j r' ⟨hpath, hports⟩ hbusy hn =>
      ⟨hpath.move (nextRegs_move hn) (hports p List.mem_cons_self) hbusy,
        fun q hq => hports q (List.mem_cons_of_mem _ hq)⟩)
    (acceptedState w s).ports
    ⟨acceptCommand_path w s.regs, fun p hp => hrest p (List.mem_of_mem_tail (acceptedState_ports w s ▸ hp))⟩ h
  obtain ⟨⟨hpath, -⟩, -⟩ := hpath
  exact ⟨hpath, (runUntilIdle_keepsPast h).accBits.trans (acceptedState_accBits w s)⟩

/-- Settles O47: the path's facts at its end in IDLE. -/
theorem commandFrame : Obligations.CommandFrame := by
  intro i s t hq hr h ht
  rw [exec_eq_runCommand] at h
  obtain ⟨⟨hlatch, htail, -, hunbuilt, hbuilt⟩, hbits⟩ := runCommand_path hq hr h
  refine ⟨hbits, hlatch, ?_, fun hc => ?_, fun hc => ?_⟩
  · rintro f rfl
    exact htail (opField_layOut _ _)
  · have hu := hunbuilt (.inr (.inr hc))
    rwa [OnlyLatchAndErrorWritten, ht, ← hq] at hu
  · exact hbuilt (.inr hc)

/-! ### No state is shared between transactions -/

/-- Both outcomes are next states that `R` relates, or both are the same refusal. -/
def OutcomesAgree {σ : Type} (R : σ → σ → Prop) (a b : Host.Outcome σ Fault Refusal) : Prop :=
  (∃ x y, a = .next x ∧ b = .next y ∧ R x y) ∨ ∃ e, a = .refused e ∧ b = .refused e

theorem OutcomesAgree.next {σ : Type} {R : σ → σ → Prop} {x y : σ} (h : R x y) :
    OutcomesAgree R (.next x) (.next y) := .inl ⟨x, y, rfl, rfl, h⟩

theorem OutcomesAgree.refused {σ : Type} {R : σ → σ → Prop} (e : Refusal) :
    OutcomesAgree R (.refused e) (.refused e) := .inr ⟨e, rfl, rfl⟩

/-- Two blocks have built the same command and taken in the same response (42_transaction_sequencer.md rules R112 and
R115). The frame buffer beyond the presented frame may differ. -/
structure BuiltAlike (r u : Regs) : Prop where
  cmd : r.cmd = u.cmd
  frame : presentedFrame r = presentedFrame u
  retLen : r.retLen = u.retLen
  acc : r.acc = u.acc
  rxCount : r.rxCount = u.rxCount

/-- What two blocks that run one command share, apart from `STATE`, `CW` and `E_*`: in each state what the command has
written and still reads. -/
def StageAgrees : SeqState → Regs → Regs → Prop
  | .check, _, _ | .build, _, _ => True
  | .send, r, u | .recv, r, u | .parse, r, u => BuiltAlike r u
  | .compare, r, u => BuiltAlike r u ∧ r.pRecvValid = u.pRecvValid ∧ r.pRbf = u.pRbf
  | .done, r, u => r.res = u.res
  | .idle, r, u | .error, r, u => r.eClass = .none → r.res = u.res

/-- Two blocks run one command in step, whatever earlier commands left in them. -/
structure RunAlike (r u : Regs) : Prop where
  seq : r.seq = u.seq
  cw : r.cw = u.cw
  eClass : r.eClass = u.eClass
  eCause : r.eCause = u.eCause
  stage : StageAgrees r.seq r u

theorem RunAlike.stage_of {r u : Regs} {q : SeqState} (h : RunAlike r u) (hq : r.seq = q) : StageAgrees q r u :=
  hq ▸ h.stage

theorem RunAlike.reset : RunAlike .reset .reset := ⟨rfl, rfl, rfl, rfl, fun _ => rfl⟩

theorem RunAlike.raise {r u : Regs} (h : RunAlike r u) (c : ErrClass) (k : CfgCause) (hc : c ≠ .none) :
    RunAlike (raiseError c k r) (raiseError c k u) :=
  ⟨rfl, h.cw, rfl, rfl, fun he => absurd he hc⟩

theorem RunAlike.check {r u : Regs} (h : RunAlike r u) (p : PortIn) : RunAlike (checkRegs p r) (checkRegs p u) := by
  unfold checkRegs
  rw [← h.cw]
  split_ifs
  · exact h.raise _ _ (by decide)
  · exact ⟨rfl, h.cw, h.eClass, h.eCause, trivial⟩
  · exact h.raise _ _ (by decide)

theorem presentedFrame_builtRegs {r : Regs} {f : List Byte} (hf : packedFrame r.cw = some f) :
    presentedFrame (builtRegs f r) = f := presentedFrame_of_pack hf rfl rfl

theorem RunAlike.build {r u : Regs} (h : RunAlike r u) : RunAlike (buildRegs r) (buildRegs u) := by
  cases hf : packedFrame r.cw with
  | none =>
    rw [buildRegs_of_none hf, buildRegs_of_none (h.cw ▸ hf)]
    exact h.raise _ _ (by decide)
  | some f =>
    have hf' : packedFrame u.cw = some f := h.cw ▸ hf
    rw [buildRegs_of_some hf, buildRegs_of_some hf']
    refine ⟨rfl, h.cw, h.eClass, h.eCause, ⟨?_, ?_, ?_, rfl, rfl⟩⟩
    · simp only [builtRegs, h.cw]
    · rw [presentedFrame_builtRegs hf, presentedFrame_builtRegs hf']
    · simp only [builtRegs, h.cw]

theorem BuiltAlike.goto {r u : Regs} (h : BuiltAlike r u) (q : SeqState) : BuiltAlike (goto q r) (goto q u) :=
  ⟨h.cmd, h.frame, h.retLen, h.acc, h.rxCount⟩

theorem BuiltAlike.absorb {r u : Regs} (h : BuiltAlike r u) (b : Byte) :
    BuiltAlike (absorbByte b r) (absorbByte b u) :=
  ⟨h.cmd, h.frame, h.retLen, by simp [h.acc], by simp [h.rxCount]⟩

theorem RunAlike.send {r u : Regs} (h : RunAlike r u) (hq : r.seq = .send) (p : PortIn) :
    RunAlike (sendRegs p r) (sendRegs p u) := by
  have hb : BuiltAlike r u := h.stage_of hq
  unfold sendRegs
  split_ifs
  · exact h.raise _ _ (by decide)
  · exact ⟨rfl, h.cw, h.eClass, h.eCause, hb.goto _⟩
  · exact h

theorem RunAlike.endRead {r u : Regs} (h : RunAlike r u) (hq : r.seq = .recv) (p : PortIn) :
    RunAlike (endReadRegs p r) (endReadRegs p u) := by
  have hb : BuiltAlike r u := h.stage_of hq
  unfold endReadRegs
  split_ifs
  · exact ⟨rfl, h.cw, h.eClass, h.eCause, hb.goto _⟩
  · exact h

theorem RunAlike.recv {r u : Regs} (h : RunAlike r u) (hq : r.seq = .recv) (n : Nat) (p : PortIn) :
    OutcomesAgree RunAlike (recvRegs n p r) (recvRegs n p u) := by
  have hb : BuiltAlike r u := h.stage_of hq
  have habs : absorbs p u = absorbs p r := by simp only [absorbs, hb.retLen, hb.rxCount]
  have habsorbed : RunAlike (absorbByte p.tpRxByte r) (absorbByte p.tpRxByte u) :=
    ⟨h.seq, h.cw, h.eClass, h.eCause, by rw [absorbByte_seq, hq]; exact hb.absorb _⟩
  unfold recvRegs
  rw [habs, ← hb.rxCount]
  split_ifs
  · exact .next (habsorbed.endRead hq p)
  · exact .refused _
  · exact .next (h.endRead hq p)

theorem RunAlike.parse {r u : Regs} (h : RunAlike r u) (hq : r.seq = .parse) :
    RunAlike (parseRegs r) (parseRegs u) := by
  obtain ⟨hcmd, hframe, hlen, hacc, hcount⟩ : BuiltAlike r u := h.stage_of hq
  exact ⟨rfl, h.cw, h.eClass, h.eCause, ⟨hcmd, hframe, hlen, hacc, hcount⟩, by simp [recvValidFlag, hcount],
    by simp [readbackFailedFlag, hcount]⟩

theorem resultOf_congr {r u : Regs} (h : BuiltAlike r u) (hv : r.pRecvValid = u.pRecvValid) (hf : r.pRbf = u.pRbf) :
    resultOf r = resultOf u := by
  simp only [resultOf, mismatchFlag, h.cmd, h.acc, hv, hf]

theorem RunAlike.compare {r u : Regs} (h : RunAlike r u) (hq : r.seq = .compare) :
    RunAlike (compareRegs r) (compareRegs u) := by
  obtain ⟨hb, hv, hf⟩ : BuiltAlike r u ∧ r.pRecvValid = u.pRecvValid ∧ r.pRbf = u.pRbf :=
    h.stage_of hq
  exact ⟨rfl, h.cw, h.eClass, h.eCause, resultOf_congr hb hv hf⟩

theorem RunAlike.accept {r u : Regs} (w : CmdWord) : RunAlike (acceptCommand w r) (acceptCommand w u) :=
  ⟨rfl, rfl, rfl, rfl, trivial⟩

theorem RunAlike.idle {r u : Regs} (h : RunAlike r u) (p : PortIn) : RunAlike (idleRegs p r) (idleRegs p u) := by
  unfold idleRegs
  split_ifs
  · exact .accept _
  · exact h

/-- One block step with the same inputs keeps two blocks in step, or is refused in both. -/
theorem RunAlike.nextRegs_agree {r u : Regs} (h : RunAlike r u) (n : Nat) (p : PortIn) :
    OutcomesAgree RunAlike (nextRegs n p r) (nextRegs n p u) := by
  cases hp : p.rst with
  | true => rw [nextRegs_rst r hp, nextRegs_rst u hp]; exact .next .reset
  | false =>
    cases hq : r.seq with
    | idle => rw [nextRegs_idle hp hq, nextRegs_idle hp (h.seq ▸ hq)]; exact .next (h.idle p)
    | check => rw [nextRegs_check hp hq, nextRegs_check hp (h.seq ▸ hq)]; exact .next (h.check p)
    | build => rw [nextRegs_build hp hq, nextRegs_build hp (h.seq ▸ hq)]; exact .next h.build
    | send => rw [nextRegs_send hp hq, nextRegs_send hp (h.seq ▸ hq)]; exact .next (h.send hq p)
    | recv => rw [nextRegs_recv hp hq, nextRegs_recv hp (h.seq ▸ hq)]; exact h.recv hq n p
    | parse => rw [nextRegs_parse hp hq, nextRegs_parse hp (h.seq ▸ hq)]; exact .next (h.parse hq)
    | compare => rw [nextRegs_compare hp hq, nextRegs_compare hp (h.seq ▸ hq)]; exact .next (h.compare hq)
    | done =>
      rw [nextRegs_done hp hq, nextRegs_done hp (h.seq ▸ hq)]
      exact .next ⟨rfl, h.cw, h.eClass, h.eCause, fun _ => h.stage_of hq⟩
    | error =>
      rw [nextRegs_error hp hq, nextRegs_error hp (h.seq ▸ hq)]
      exact .next ⟨rfl, h.cw, h.eClass, h.eCause, h.stage_of hq⟩

/-- A block step from SEND that is no reset keeps `RET_LEN`. -/
theorem BlockMove.retLen_of_send {p : PortIn} {r r' : Regs} (h : BlockMove p r r') (hq : r.seq = .send)
    (hp : p.rst = false) : r'.retLen = r.retLen := by
  cases h <;> simp_all

/-- SEND of two blocks in step asks for equally many bytes. -/
theorem RunAlike.retLen_of_send {p : PortIn} {r u r' u' : Regs} (h : RunAlike r u) (hr : BlockMove p r r')
    (hu : BlockMove p u u') (hq : r.seq = .send) (hp : p.rst = false) : r'.retLen = u'.retLen := by
  have hb : BuiltAlike r u := h.stage_of hq
  calc r'.retLen = r.retLen := hr.retLen_of_send hq hp
    _ = u.retLen := hb.retLen
    _ = u'.retLen := (hu.retLen_of_send (h.seq ▸ hq) hp).symm

/-- Blocks in step tell the journal the same. -/
theorem RunAlike.emitted_eq {p : PortIn} {r u r' u' : Regs} (h : RunAlike r u) (h' : RunAlike r' u')
    (hr : BlockMove p r r') (hu : BlockMove p u u') : emitted p r r' = emitted p u u' := by
  have hq' := h.seq
  cases hq : r.seq with
  | build =>
    have hframe (hs : r'.seq = .send) : presentedFrame r' = presentedFrame u' :=
      BuiltAlike.frame (h'.stage_of hs)
    simp +contextual only [emitted, ← h.seq, hq, ← h'.seq, hframe]
  | send =>
    rw [emitted_send r' hq, emitted_send u' (h.seq ▸ hq)]
    cases hp : p.rst with
    | true => rfl
    | false => rw [h.retLen_of_send hr hu hq hp]
  | done =>
    have hres : r.res = u.res := h.stage_of hq
    simp only [emitted, ← h.seq, hq, outputs, hres]
  | _ => simp only [emitted, outputs, ← h.seq, hq, h.eClass]

/-- Two states of one build that run one command in step on the same inputs; `j` and `k` are their journals before it. -/
structure StatesRunAlike (j k : List Event) (s u : State) : Prop where
  regs : RunAlike s.regs u.regs
  accBits : s.accBits = u.accBits
  ports : s.ports = u.ports
  drawn : s.drawn = u.drawn
  journal : ∃ ev, s.journal = j ++ ev ∧ u.journal = k ++ ev

theorem StatesRunAlike.stepWith_agree {j k : List Event} {s u : State} (h : StatesRunAlike j k s u) (p : PortIn) :
    OutcomesAgree (StatesRunAlike j k) (stepWith p s) (stepWith p u) := by
  obtain ⟨hregs, hbits, hports, hdrawn, ev, hs, hu⟩ := h
  obtain ⟨r', u', hr, hv, h'⟩ | ⟨e, hr, hv⟩ := hregs.nextRegs_agree s.accBits p
  · simp only [stepWith, ← hbits, hr, hv]
    refine .next ⟨h', rfl, hports, hdrawn, ev ++ emitted p s.regs r', ?_, ?_⟩
    · simp only [hs, List.append_assoc]
    · simp only [hu, List.append_assoc, hregs.emitted_eq h' (nextRegs_move hr) (nextRegs_move hv)]
  · simp only [stepWith, ← hbits, hr, hv]
    exact .refused e

theorem nextPorts_congr {s u : State} (hports : s.ports = u.ports) (hdrawn : s.drawn = u.drawn) :
    nextPorts s = nextPorts u := by
  simp only [nextPorts, hports, hdrawn]

theorem dropPorts_drawn_congr {s u : State} (hports : s.ports = u.ports) (hdrawn : s.drawn = u.drawn) :
    (dropPorts s).drawn = (dropPorts u).drawn := by
  cases hp : s.ports with
  | nil => simp only [dropPorts, hp, ← hports, hdrawn]
  | cons p ps => simp only [dropPorts, hp, ← hports, hdrawn]

theorem StatesRunAlike.dropPorts_alike {j k : List Event} {s u : State} (h : StatesRunAlike j k s u) :
    StatesRunAlike j k (dropPorts s) (dropPorts u) where
  regs := by simpa using h.regs
  accBits := by simpa using h.accBits
  ports := by simp [h.ports]
  drawn := dropPorts_drawn_congr h.ports h.drawn
  journal := by simpa using h.journal

theorem StatesRunAlike.blockStep_agree {j k : List Event} {s u : State} (h : StatesRunAlike j k s u) :
    OutcomesAgree (StatesRunAlike j k) (blockStep s) (blockStep u) := by
  unfold blockStep
  rw [← nextPorts_congr h.ports h.drawn]
  exact h.dropPorts_alike.stepWith_agree _

theorem StatesRunAlike.runUntilIdle_agree {j k : List Event} (n : Nat) {s u : State} (h : StatesRunAlike j k s u) :
    OutcomesAgree (StatesRunAlike j k) (runUntilIdle n s) (runUntilIdle n u) := by
  induction n generalizing s u with
  | zero => exact .next h
  | succ n ih =>
    by_cases hq : s.regs.seq = .idle
    · rw [runUntilIdle_idle hq, runUntilIdle_idle (h.regs.seq ▸ hq)]
      exact .next h
    · have hq' : u.regs.seq ≠ .idle := h.regs.seq ▸ hq
      obtain ⟨t, v, ht, hv, h'⟩ | ⟨e, ht, hv⟩ := h.blockStep_agree
      · simpa only [runUntilIdle, if_neg hq, if_neg hq', ht, hv] using ih h'
      · simpa only [runUntilIdle, if_neg hq, if_neg hq', ht, hv] using .refused e

/-- A reset in the accepting step leaves the reset registers, and nothing runs on. -/
theorem runCommand_idle_rst {w : CmdWord} {s : State} (hq : s.regs.seq = .idle) (hp : (nextPorts s).rst = true) :
    runCommand w s = .next { dropPorts s with regs := .reset } := by
  have hi : Regs.reset.seq = .idle := rfl
  simp [runCommand, stepWith, nextRegs, emitted, hp, hq, runUntilIdle_idle, hi]

/-- The one command on two idle states that see the same inputs: both accept it and run in step, or both are reset. -/
theorem runCommand_alike (w : CmdWord) {s u : State} (hs : s.regs.seq = .idle) (hu : u.regs.seq = .idle)
    (hbits : s.accBits = u.accBits) (hports : s.ports = u.ports) (hdrawn : s.drawn = u.drawn) :
    OutcomesAgree (StatesRunAlike s.journal u.journal) (runCommand w s) (runCommand w u) := by
  have hnext := nextPorts_congr hports hdrawn
  have hdrop {r r' : Regs} (h : RunAlike r r') :
      StatesRunAlike s.journal u.journal { dropPorts s with regs := r } { dropPorts u with regs := r' } :=
    ⟨h, by simpa using hbits, by simp [hports], dropPorts_drawn_congr hports hdrawn, [], by simp, by simp⟩
  cases hp : (nextPorts s).rst with
  | true =>
    rw [runCommand_idle_rst hs hp, runCommand_idle_rst hu (hnext ▸ hp)]
    exact .next (hdrop .reset)
  | false =>
    rw [runCommand_idle hs hp, runCommand_idle hu (hnext ▸ hp), acceptedState_ports, acceptedState_ports, hports]
    exact (hdrop (.accept w)).runUntilIdle_agree _

/-- Settles O51: two idle blocks run a command in step. -/
theorem transactionsShareNoState : Obligations.TransactionsShareNoState := by
  intro w s u hs hu hbits hports hdrawn
  obtain ⟨t, v, ht, hv, hregs, -, hp, hd, ev, hj, hk⟩ | ⟨e, ht, hv⟩ := runCommand_alike w hs hu hbits hports hdrawn
  · refine ⟨fun e he => by simp [ht] at he, fun t' ht' => ?_⟩
    obtain rfl : t = t' := by simpa [ht] using ht'
    exact ⟨v, ev, hv, hj, hk, hregs.seq.symm, hp.symm, hd.symm, hregs.eClass.symm, hregs.eCause.symm,
      fun hq hc => (hregs.stage_of hq hc).symm⟩
  · refine ⟨fun e' he => ?_, fun t' ht' => by simp [ht] at ht'⟩
    rwa [hv, ← ht]

end Sys2Proof.Proofs
end

section
/-! SUPPORT. 20_memory.md: every step of the machine keeps the invariant. -/

namespace Sys2Proof.Proofs

open Sys2Proof.Machine Sys2Proof.Laws

/-! ### The result registers -/

/-- The `rw` of a legal word is READ or WRITE (30_encoding.md rule R65). -/
theorem operandsOf_rw_legal {w : CmdWord} (h : legalOp w = true) :
    (operandsOf w).rw = Config.rwRead ∨ (operandsOf w).rw = Config.rwWrite := (legalOp_iff w).1 h

/-- A WRITE's operands always have an expected value (42_transaction_sequencer.md rule R108). -/
theorem operandsOf_write_expValid {w : CmdWord} (h : (operandsOf w).rw = Config.rwWrite) :
    (operandsOf w).expValid = true := by
  simp [operandsOf, expectedSet, show opField w = Config.rwWrite from h]

/-- `C_EXP` is 0 where expected is not set (30_encoding.md rule R63). -/
theorem operandsOf_exp_eq_zero {w : CmdWord} (h : (operandsOf w).expValid = false) : (operandsOf w).exp = 0#32 := by
  obtain ⟨hfield, hop⟩ : (fieldsOf w).expValid = false ∧ opField w ≠ Config.rwWrite := by
    simpa [operandsOf, expectedSet] using h
  simp [operandsOf, expectedOperand, hfield, hop]

/-- The reset values meet what is said of the result registers. -/
theorem resultInv_reset (n : Nat) : ResultInv n .reset where
  untouched _ := rfl
  rwLegal := .inl rfl
  writeExpects := by decide
  expZero _ := rfl
  failedIffNoValue := by decide
  receivedZero _ := rfl
  receivedFits := Nat.two_pow_pos _
  mismatchExact := rfl

/-- `ACC` fits the accumulator of the build, since the bytes absorbed do (41_response_parser.md rule R103). -/
theorem acc_fits {n : Nat} {r : Regs} (h : RegsInv n r) : r.acc < 2 ^ (8 * accumulatorBytes n) :=
  h.accRange.trans_le (Nat.pow_le_pow_right two_pos (Nat.mul_le_mul_left 8 h.countFits))

/-- What COMPARE records meets what is said of the result registers: the command is that of a legal word, and PARSE has
set the flags (42_transaction_sequencer.md rules R116 to R118). -/
theorem resultInv_resultOf {n : Nat} {r : Regs} (h : RegsInv n r) (hq : r.seq = .compare) :
    ResultInv n (resultOf r) := by
  obtain ⟨hlegal, hcmd⟩ := h.commandOfLatch (hq ▸ rfl)
  obtain ⟨hvalid, hfailed⟩ := h.parsed hq
  exact {
    untouched := by simp [resultOf]
    rwLegal := by simpa only [resultOf, hcmd] using operandsOf_rw_legal hlegal
    writeExpects := by simpa only [resultOf, hcmd] using operandsOf_write_expValid
    expZero := by simpa only [resultOf, hcmd] using operandsOf_exp_eq_zero
    failedIffNoValue := fun _ => by simp [resultOf, hvalid, hfailed, bne]
    receivedZero := by simp +contextual [resultOf]
    receivedFits := by
      simp only [resultOf]
      split
      · exact acc_fits h
      · exact Nat.two_pow_pos _
    mismatchExact := by cases hv : r.pRecvValid <;> simp [resultOf, mismatchFlag, hv] }

/-! ### The moves of a block step -/

/-- Reset meets the invariant in every build (70_reset_and_hazards.md rule R171). -/
theorem regsInv_reset (n : Nat) : RegsInv n .reset where
  countBound := Nat.zero_le _
  countFits := Nat.zero_le _
  accRange := Nat.one_pos
  causeOfConfiguration := by decide
  errorHasClass := by decide
  classAtEnd := by decide
  buildLegal := by decide
  commandOfLatch := by decide
  frameOfCommand := .inl ⟨rfl, rfl, rfl, rfl⟩
  sendCleared := by decide
  parsed := by decide
  recorded := by decide
  result := resultInv_reset n

/-- No class stands while a command runs (60_exceptions.md rule R151). -/
theorem eClass_eq_none {n : Nat} {r : Regs} (h : RegsInv n r) {q : SeqState} (hq : r.seq = q)
    (hbusy : q ≠ .error ∧ q ≠ .idle) : r.eClass = .none := by
  by_contra hc
  exact (hq ▸ h.classAtEnd hc).elim hbusy.1 hbusy.2

/-- After BUILD the frame buffer and `RET_LEN` are those of the command (42_transaction_sequencer.md rule R112). -/
theorem frame_of_afterBuild {n : Nat} {r : Regs} (h : RegsInv n r) {q : SeqState} (hq : r.seq = q)
    (ha : afterBuild q = true) :
    pack r.cmd.rw r.cmd.addr r.cmd.len r.cmd.data = some (presentedFrame r) ∧
      r.retLen = returnLength r.cmd.rw r.cmd.len :=
  h.frameOfCommand.resolve_left fun ⟨_, _, _, hn⟩ => by simp [hq, ha] at hn

/-- A move that writes `STATE` alone keeps the invariant where the new state asks for nothing that has to be computed
first. -/
theorem regsInv_goto {n : Nat} {r : Regs} (h : RegsInv n r) {q : SeqState}
    (hq : q = .idle ∨ q = .build ∨ q = .recv ∨ q = .parse) (hclass : q = .idle ∨ r.eClass = .none)
    (hlegal : q = .build → legalOp r.cw = true) (hafter : afterBuild q = true → afterBuild r.seq = true) :
    RegsInv n (goto q r) where
  countBound := h.countBound
  countFits := h.countFits
  accRange := h.accRange
  causeOfConfiguration := h.causeOfConfiguration
  errorHasClass hs := by simp_all
  classAtEnd hc := .inr (hclass.resolve_right hc)
  buildLegal := hlegal
  commandOfLatch ha := h.commandOfLatch (hafter ha)
  frameOfCommand := h.frameOfCommand.imp_left fun ⟨hcmd, hlen, hret, ha⟩ =>
    ⟨hcmd, hlen, hret, Bool.eq_false_of_not_eq_true fun hn => by simp [hafter hn] at ha⟩
  sendCleared hs := by simp_all
  parsed hs := by simp_all
  recorded hs := by simp_all
  result := h.result

/-- Taking an error keeps the invariant where the cause is that of its class (60_exceptions.md rules R141 and R148). -/
theorem regsInv_raiseError {n : Nat} {r : Regs} (h : RegsInv n r) {c : ErrClass} {k : CfgCause} (hc : c ≠ .none)
    (hk : c = .configuration ↔ k ≠ .none) : RegsInv n (raiseError c k r) where
  countBound := h.countBound
  countFits := h.countFits
  accRange := h.accRange
  causeOfConfiguration := hk
  errorHasClass _ := hc
  classAtEnd _ := .inl rfl
  buildLegal := by simp
  commandOfLatch := by simp [afterBuild]
  frameOfCommand := h.frameOfCommand.imp_left fun ⟨hcmd, hlen, hret, _⟩ => ⟨hcmd, hlen, hret, rfl⟩
  sendCleared := by simp
  parsed := by simp
  recorded := by simp
  result := h.result

/-- Accepting a command clears the error registers and keeps what the last command built
(42_transaction_sequencer.md rule R110). -/
theorem regsInv_acceptCommand {n : Nat} {r : Regs} (h : RegsInv n r) (w : CmdWord) : RegsInv n (acceptCommand w r) where
  countBound := h.countBound
  countFits := h.countFits
  accRange := h.accRange
  causeOfConfiguration := by simp
  errorHasClass := by simp
  classAtEnd := by simp
  buildLegal := by simp
  commandOfLatch := by simp [afterBuild]
  frameOfCommand := h.frameOfCommand.imp_left fun ⟨hcmd, hlen, hret, _⟩ => ⟨hcmd, hlen, hret, rfl⟩
  sendCleared := by simp
  parsed := by simp
  recorded := by simp
  result := h.result

/-- BUILD establishes the command, the frame and a cleared accumulator (42_transaction_sequencer.md rule R112). -/
theorem regsInv_builtRegs {n : Nat} {r : Regs} (h : RegsInv n r) (hq : r.seq = .build) {f : List Byte}
    (hf : packedFrame r.cw = some f) : RegsInv n (builtRegs f r) where
  countBound := Nat.zero_le _
  countFits := Nat.zero_le _
  accRange := Nat.one_pos
  causeOfConfiguration := h.causeOfConfiguration
  errorHasClass := by simp [builtRegs]
  classAtEnd hc := absurd (eClass_eq_none h hq (by decide)) hc
  buildLegal := by simp [builtRegs]
  commandOfLatch _ := ⟨h.buildLegal hq, rfl⟩
  frameOfCommand := .inr ⟨hf.trans (congrArg some (presentedFrame_builtRegs hf).symm), rfl⟩
  sendCleared _ := ⟨rfl, rfl⟩
  parsed := by simp [builtRegs]
  recorded := by simp [builtRegs]
  result := h.result

/-- `RX_COUNT` does not wrap where a byte is absorbed, because it is below `RET_LEN` (20_memory.md rule R54). -/
theorem rxCount_succ_toNat {r : Regs} (h : r.rxCount.toNat < r.retLen.toNat) :
    (r.rxCount + 1#16).toNat = r.rxCount.toNat + 1 := by
  have := r.retLen.isLt
  exact BitVec.toNat_add_of_lt (by simpa using by omega)

/-- Absorbing a byte below `RET_LEN` that the accumulator holds keeps the invariant (41_response_parser.md rules R97 and
R103). -/
theorem regsInv_absorbByte {n : Nat} {r : Regs} (h : RegsInv n r) (hq : r.seq = .recv)
    (hroom : r.rxCount.toNat < r.retLen.toNat) (hfits : r.rxCount.toNat + 1 ≤ accumulatorBytes n) (b : Byte) :
    RegsInv n (absorbByte b r) where
  countBound := (rxCount_succ_toNat hroom).trans_le hroom
  countFits := (rxCount_succ_toNat hroom).trans_le hfits
  accRange := by
    rw [absorbByte_acc, absorbByte_rxCount, rxCount_succ_toNat hroom]
    exact accumulateByte_lt _ _ b h.accRange
  causeOfConfiguration := h.causeOfConfiguration
  errorHasClass := h.errorHasClass
  classAtEnd := h.classAtEnd
  buildLegal := h.buildLegal
  commandOfLatch := h.commandOfLatch
  frameOfCommand := h.frameOfCommand
  sendCleared := by simp [hq]
  parsed := by simp [hq]
  recorded := by simp [hq]
  result := h.result

/-- What RECV does with the byte port keeps the invariant. -/
theorem regsInv_absorbMove {n : Nat} {p : PortIn} {r r₁ : Regs} (h : RegsInv n r) (hq : r.seq = .recv)
    (h₁ : AbsorbMove p r r₁) (hfits : absorbs p r = true → r.rxCount.toNat + 1 ≤ accumulatorBytes n) :
    RegsInv n r₁ := by
  obtain ⟨hab, rfl⟩ | ⟨-, rfl⟩ := h₁
  · obtain ⟨-, hroom⟩ : p.tpRxValid = true ∧ r.rxCount.toNat < r.retLen.toNat := by simpa [absorbs] using hab
    exact regsInv_absorbByte h hq hroom (hfits hab) _
  · exact h

/-- PARSE sets the working flags (42_transaction_sequencer.md rule R116). -/
theorem regsInv_parseRegs {n : Nat} {r : Regs} (h : RegsInv n r) (hq : r.seq = .parse) : RegsInv n (parseRegs r) where
  countBound := h.countBound
  countFits := h.countFits
  accRange := h.accRange
  causeOfConfiguration := h.causeOfConfiguration
  errorHasClass := by simp
  classAtEnd hc := absurd (eClass_eq_none h hq (by decide)) hc
  buildLegal := by simp
  commandOfLatch _ := h.commandOfLatch (hq ▸ rfl)
  frameOfCommand := .inr (frame_of_afterBuild (r := r) h hq rfl)
  sendCleared := by simp
  parsed _ := ⟨rfl, rfl⟩
  recorded := by simp
  result := h.result

/-- COMPARE records the result (42_transaction_sequencer.md rules R117 and R118). -/
theorem regsInv_compareRegs {n : Nat} {r : Regs} (h : RegsInv n r) (hq : r.seq = .compare) :
    RegsInv n (compareRegs r) where
  countBound := h.countBound
  countFits := h.countFits
  accRange := h.accRange
  causeOfConfiguration := h.causeOfConfiguration
  errorHasClass := by simp
  classAtEnd hc := absurd (eClass_eq_none h hq (by decide)) hc
  buildLegal := by simp
  commandOfLatch _ := h.commandOfLatch (hq ▸ rfl)
  frameOfCommand := .inr (frame_of_afterBuild (r := r) h hq rfl)
  sendCleared := by simp
  parsed := by simp
  recorded _ := ⟨rfl, rfl⟩
  result := resultInv_resultOf h hq

/-! ### Every step -/

/-- A RECV step that is not refused absorbs only a byte that the accumulator holds (41_response_parser.md rule R103). -/
theorem rxCount_fits_of_absorbs {n : Nat} {p : PortIn} {r r' : Regs} (hp : p.rst = false) (hq : r.seq = .recv)
    (h : nextRegs n p r = .next r') (hab : absorbs p r = true) : r.rxCount.toNat + 1 ≤ accumulatorBytes n := by
  rw [nextRegs_recv hp hq] at h
  obtain ⟨-, hfits, -⟩ | ⟨hno, -⟩ := recvRegs_next h
  · exact hfits
  · simp [hno] at hab

/-- One block step keeps the invariant, move by move. -/
theorem regsInv_nextRegs {n : Nat} {p : PortIn} {r r' : Regs} (h : RegsInv n r) (hn : nextRegs n p r = .next r') :
    RegsInv n r' := by
  cases nextRegs_move hn with
  | reset => exact regsInv_reset n
  | idles => exact h
  | accepts => exact regsInv_acceptCommand h _
  | findsClosed => exact regsInv_raiseError h (by decide) (by decide)
  | rejects => exact regsInv_raiseError h (by decide) (by decide)
  | checks _ hq _ hl =>
    exact regsInv_goto h (by simp) (.inr (eClass_eq_none h hq (by decide))) (fun _ => hl) (by simp [afterBuild])
  | builds _ hq f hf => exact regsInv_builtRegs h hq hf
  | packFails => exact regsInv_raiseError h (by decide) (by decide)
  | writeFails => exact regsInv_raiseError h (by decide) (by decide)
  | writeSucceeds _ hq =>
    exact regsInv_goto h (by simp) (.inr (eClass_eq_none h hq (by decide))) (by simp) (by simp [hq, afterBuild])
  | writeWaits => exact h
  | reads hp hq h₁ => exact regsInv_absorbMove h hq h₁ (rxCount_fits_of_absorbs hp hq hn)
  | endsRead hp hq h₁ =>
    have hinv := regsInv_absorbMove h hq h₁ (rxCount_fits_of_absorbs hp hq hn)
    have hq₁ := h₁.seq.trans hq
    exact regsInv_goto hinv (by simp) (.inr (eClass_eq_none hinv hq₁ (by decide))) (by simp)
      (by simp [hq₁, afterBuild])
  | parses _ hq => exact regsInv_parseRegs h hq
  | compares _ hq => exact regsInv_compareRegs h hq
  | finishes => exact regsInv_goto h (q := .idle) (by simp) (.inl rfl) (by simp) (by simp [afterBuild])
  | leavesError => exact regsInv_goto h (q := .idle) (by simp) (.inl rfl) (by simp) (by simp [afterBuild])

theorem stepWith_inv {p : PortIn} {s t : State} (h : MachineInv s) (ht : stepWith p s = .next t) : MachineInv t := by
  obtain ⟨r, hr, rfl⟩ := stepWith_next ht
  exact regsInv_nextRegs h hr

/-- Taking the inputs touches no register. -/
theorem dropPorts_inv {s : State} (h : MachineInv s) : MachineInv (dropPorts s) := by
  rwa [MachineInv, dropPorts_regs, dropPorts_accBits]

theorem runUntilIdle_inv {n : Nat} {s t : State} (h : MachineInv s) (ht : runUntilIdle n s = .next t) : MachineInv t :=
  runUntilIdle_induction (fun _ _ hs _ hb => stepWith_inv (dropPorts_inv hs) hb) n h ht

/-- Settles O52: a step is one block step and, where it accepts a command, the block steps of the command's run. -/
theorem everyStepKeepsInv : Obligations.EveryStepKeepsInv := by
  intro s t h ht
  obtain ⟨p, u, hu, rfl | hrun⟩ := step_next ht
  · exact stepWith_inv (dropPorts_inv h) hu
  · exact runUntilIdle_inv (stepWith_inv (dropPorts_inv h) hu) hrun

end Sys2Proof.Proofs
end

section
/-! SUPPORT. 30_encoding.md: the command word, the operands, the assembler lines and the two frames. -/

namespace Sys2Proof.Proofs

open Sys2Proof.Machine Sys2Proof.Laws

/-! ### The decoder and the encoder -/

theorem decode_of_read {w : CmdWord} (h : opField w = Config.rwRead) : decode w = .ok (.read (fieldsOf w)) := if_pos h

theorem decode_of_write {w : CmdWord} (h : opField w = Config.rwWrite) : decode w = .ok (.write (fieldsOf w)) := by
  rw [decode, if_neg (by rw [h]; decide), if_pos h]

theorem decode_of_illegal {w : CmdWord} (hr : opField w ≠ Config.rwRead) (hw : opField w ≠ Config.rwWrite) :
    decode w = .error (.illegalOp (opField w)) := by
  rw [decode, if_neg hr, if_neg hw]

theorem decode_encode (i : Instr) : decode (encode i) = .ok i := by
  cases i with
  | read f => rw [encode, decode_of_read (opField_layOut _ _), fieldsOf_layOut]
  | write f => rw [encode, decode_of_write (opField_layOut _ _), fieldsOf_layOut]

/-- Settles O1: the decoder selects by the `OP` that was laid out, and reads the fields that were. -/
theorem decodeOfEncodeIsTheInstruction : Obligations.DecodeOfEncodeIsTheInstruction := decode_encode

theorem encode_injective : Function.Injective encode := fun i i' h =>
  Except.ok.inj (by rw [← decode_encode i, h, decode_encode])

/-- No bit of a legal word is dropped: laying out its `OP` and fields again gives it back. -/
theorem encode_of_decode {w : CmdWord} {i : Instr} (h : decode w = .ok i) : encode i = w := by
  by_cases hr : opField w = Config.rwRead
  · obtain rfl : .read (fieldsOf w) = i := by simpa [decode_of_read hr] using h
    rw [encode, ← hr, layOut_fieldsOf]
  · by_cases hw : opField w = Config.rwWrite
    · obtain rfl : .write (fieldsOf w) = i := by simpa [decode_of_write hw] using h
      rw [encode, ← hw, layOut_fieldsOf]
    · simp [decode_of_illegal hr hw] at h

/-- Settles O2: the fields and `OP` cover a legal word. -/
theorem encodeOfDecodeIsTheWord : Obligations.EncodeOfDecodeIsTheWord := fun _ _ => encode_of_decode

/-- Settles O3: one equation of the decoder for each case. -/
theorem opByteSelectsTheInstruction : Obligations.OpByteSelectsTheInstruction := fun _ =>
  ⟨decode_of_read, decode_of_write, decode_of_illegal⟩

/-- Settles O4: closed facts, one for each word. -/
theorem wordsOfTheSpecDecodeAsWritten : Obligations.WordsOfTheSpecDecodeAsWritten :=
  ⟨by decide, by decide, by decide, by decide, by decide, by decide⟩

/-! ### The assembler lines -/

/-- A field that is 0 where its valid bit is 0 is what an optional operand of a line writes (30_encoding.md rule
R74). -/
theorem optionalField_iff {n : Nat} (valid : Bool) (x : BitVec n) :
    (valid || x == 0#n) = true ↔ ∃ o : Option (BitVec n), o.getD 0#n = x ∧ o.isSome = valid := by
  constructor
  · intro h
    cases valid with
    | false => exact ⟨none, (eq_of_beq h).symm, rfl⟩
    | true => exact ⟨some x, rfl, rfl⟩
  · rintro ⟨o, rfl, rfl⟩
    cases o <;> simp

/-- The checks that READ and WRITE share hold of exactly the fields that a line gives. -/
theorem canonical_iff (f : CmdFields) :
    (f.reservedZero && f.lenCanonical && f.expCanonical) = true ↔ ∃ l e, f = asmFields f.addr f.data l e := by
  obtain ⟨hi, exp, data, len, addr, lo, expValid, lenValid⟩ := f
  simp only [CmdFields.reservedZero, CmdFields.lenCanonical, CmdFields.expCanonical, Bool.and_eq_true, beq_iff_eq,
    optionalField_iff, asmFields, CmdFields.mk.injEq]
  constructor
  · rintro ⟨⟨⟨rfl, rfl⟩, l, rfl, rfl⟩, e, rfl, rfl⟩
    exact ⟨l, e, by simp⟩
  · rintro ⟨l, e, rfl, rfl, -, rfl, -, rfl, rfl, rfl⟩
    exact ⟨⟨⟨rfl, rfl⟩, l, rfl, rfl⟩, e, rfl, rfl⟩

theorem wellFormed_read_iff (f : CmdFields) :
    (Instr.read f).wellFormed = true ↔ ∃ a l e, f = asmFields a 0#32 l e := by
  rw [Instr.wellFormed, Bool.and_eq_true, canonical_iff, beq_iff_eq]
  constructor
  · rintro ⟨⟨l, e, hf⟩, hd⟩
    exact ⟨f.addr, l, e, hd ▸ hf⟩
  · rintro ⟨a, l, e, rfl⟩
    exact ⟨⟨l, e, rfl⟩, rfl⟩

theorem wellFormed_write_iff (f : CmdFields) :
    (Instr.write f).wellFormed = true ↔ ∃ a d l e, f = asmFields a d l e := by
  rw [Instr.wellFormed, canonical_iff]
  constructor
  · rintro ⟨l, e, hf⟩
    exact ⟨f.addr, f.data, l, e, hf⟩
  · rintro ⟨a, d, l, e, rfl⟩
    exact ⟨l, e, rfl⟩

/-- Settles O5: a well-formed command has the fields of a line, and a line that assembles to its word has its fields,
because `encode` is injective. -/
theorem wellFormedIsWhatTheAssemblerWrites : Obligations.WellFormedIsWhatTheAssemblerWrites := by
  intro i
  constructor
  · intro h
    cases i with
    | read f =>
      obtain ⟨a, l, e, rfl⟩ := (wellFormed_read_iff f).1 h
      exact ⟨.read a l e, nofun, rfl⟩
    | write f =>
      obtain ⟨a, d, l, e, rfl⟩ := (wellFormed_write_iff f).1 h
      exact ⟨.write a d l e, nofun, rfl⟩
  · rintro ⟨line, hraw, hline⟩
    cases line with
    | read a l e =>
      obtain rfl : .read (asmFields a 0#32 l e) = i := encode_injective hline
      exact (wellFormed_read_iff _).2 ⟨a, l, e, rfl⟩
    | write a d l e =>
      obtain rfl : .write (asmFields a d l e) = i := encode_injective hline
      exact (wellFormed_write_iff _).2 ⟨a, d, l, e, rfl⟩
    | raw w => exact absurd rfl (hraw w)

/-! ### The operands -/

/-- Settles O6: the operands of a laid-out word are read off its fields. -/
theorem unspecifiedOperandsTakeTheirDefaults : Obligations.UnspecifiedOperandsTakeTheirDefaults := by
  intro f
  simp only [encode, operandsOf_layOut]
  refine ⟨rfl, rfl, ?_, ?_, ?_, ?_⟩
  · simp [expectedSet, Config.rwRead, Config.rwWrite]
  · intro hv
    exact if_pos hv
  · simp [expectedSet]
  · rfl

/-- Settles O8: no operand reads a reserved bit, nor a field whose valid bit is 0. -/
theorem ignoredFieldsAreNotOperands : Obligations.IgnoredFieldsAreNotOperands := by
  intro op f hi lo l e
  simp only [operandsOf_layOut]
  exact ⟨rfl, rfl, rfl⟩

/-- Settles O9: an absent `len=` gives the operand 4 and an absent `exp=` of a WRITE the operand 0x32, as the written ones
do. -/
theorem equivalentFormsBuildOneCommand : Obligations.EquivalentFormsBuildOneCommand := by
  intro a d l e
  simp only [assemble, encode, operandsOf_layOut]
  exact ⟨rfl, rfl, rfl⟩

/-! ### The two frames -/

/-- Settles O10: the check byte of 0x31 evaluates to 0xCE, and each field is split high byte first. -/
theorem readFrameBytes : Obligations.ReadFrameBytes := fun _ _ => rfl

/-- Settles O11, as O10, with the data bytes last. -/
theorem writeFrameBytes : Obligations.WriteFrameBytes := fun _ _ _ => rfl

/-- Two bytes, high byte first, add their 16-bit value (40_frame_encoder.md rule R81). -/
theorem foldl_accumulateByte_be16 (acc : Nat) (v : Half) :
    (be16 v).foldl accumulateByte acc = acc * 2 ^ 16 + v.toNat := by
  have := v.isLt
  simp only [be16, List.foldl_cons, List.foldl_nil, accumulateByte_eq, BitVec.extractLsb'_toNat,
    Nat.shiftRight_eq_div_pow]
  omega

/-- Four bytes, high byte first, add their 32-bit value (40_frame_encoder.md rule R81). -/
theorem foldl_accumulateByte_be32 (acc : Nat) (v : Word) :
    (be32 v).foldl accumulateByte acc = acc * 2 ^ 32 + v.toNat := by
  have := v.isLt
  simp only [be32, List.foldl_cons, List.foldl_nil, accumulateByte_eq, BitVec.extractLsb'_toNat,
    Nat.shiftRight_eq_div_pow]
  omega

/-- Settles O16: after the three header bytes, each field adds its value at its place. -/
theorem framesAsIntegers : Obligations.FramesAsIntegers := by
  intro a l d
  have hread : [Config.devId, checkByte Config.devId, Config.rwRead].foldl accumulateByte 0 = 0x31CE00 := by decide
  have hwrite : [Config.devId, checkByte Config.devId, Config.rwWrite].foldl accumulateByte 0 = 0x31CE01 := by decide
  constructor
  · rw [parseInt_of_ne_nil (by simp [packRead]), packRead]
    simp only [List.foldl_append, hread, foldl_accumulateByte_be16, Option.some.injEq]
    omega
  · rw [parseInt_of_ne_nil (by simp [packWrite]), packWrite]
    simp only [List.foldl_append, hwrite, foldl_accumulateByte_be16, foldl_accumulateByte_be32, Option.some.injEq]
    omega

/-! ### Every frame on the wire -/

/-- The two shapes of a frame: 7 bytes for a READ, 11 for a WRITE (30_encoding.md rules R70 and R71). -/
def WireFrame (f : List Byte) : Prop :=
  (f.length = 7 ∧ f.take 3 = [0x31#8, 0xCE#8, 0x00#8]) ∨ (f.length = 11 ∧ f.take 3 = [0x31#8, 0xCE#8, 0x01#8])

theorem wireFrame_of_pack {rw : Byte} {a l : Half} {d : Word} {f : List Byte} (h : pack rw a l d = some f) :
    WireFrame f := by
  unfold pack at h
  split at h
  · obtain rfl : packRead a l = f := by simpa using h
    exact .inl ⟨rfl, rfl⟩
  · split at h
    · obtain rfl : packWrite a l d = f := by simpa using h
      exact .inr ⟨rfl, rfl⟩
    · cases h

/-- BUILD enters SEND by building a frame, and in no other way (42_transaction_sequencer.md rule R112). -/
theorem BlockMove.builds_of_seq_send {p : PortIn} {r r' : Regs} (h : BlockMove p r r') (hq : r.seq = .build)
    (hs : r'.seq = .send) : ∃ f, packedFrame r.cw = some f ∧ r' = builtRegs f r := by
  cases h with
  | builds _ _ f hf => exact ⟨f, hf, rfl⟩
  | reads _ hr => simp [hq] at hr
  | _ => simp_all [Regs.reset]

/-- `t` comes after `s`, and every write request recorded between them has a frame of one of the two shapes. -/
def RequestsWireFrames (s t : State) : Prop :=
  ∃ ev, t.journal = s.journal ++ ev ∧ ∀ f, Event.writeRequested f ∈ ev → WireFrame f

theorem RequestsWireFrames.refl (s : State) : RequestsWireFrames s s := ⟨[], by simp, by simp⟩

theorem RequestsWireFrames.trans {s t u : State} (h : RequestsWireFrames s t) (k : RequestsWireFrames t u) :
    RequestsWireFrames s u := by
  obtain ⟨ev, hj, hf⟩ := h
  obtain ⟨ev', hj', hf'⟩ := k
  refine ⟨ev ++ ev', by rw [hj', hj, List.append_assoc], fun f hmem => ?_⟩
  exact (List.mem_append.1 hmem).elim (hf f) (hf' f)

theorem stepWith_requestsWireFrames {p : PortIn} {s t : State} (h : stepWith p s = .next t) :
    RequestsWireFrames s t := by
  obtain ⟨r, hr, rfl⟩ := stepWith_next h
  refine ⟨_, rfl, fun f hmem => ?_⟩
  obtain ⟨hq, hs, rfl⟩ := (writeRequested_mem_emitted p s.regs r f).1 hmem
  obtain ⟨f, hf, rfl⟩ := (nextRegs_move hr).builds_of_seq_send hq hs
  rw [presentedFrame_builtRegs hf]
  exact wireFrame_of_pack hf

/-- Taking the inputs records nothing. -/
theorem RequestsWireFrames.of_dropPorts {s t : State} (h : RequestsWireFrames (dropPorts s) t) :
    RequestsWireFrames s t := by
  rwa [RequestsWireFrames, dropPorts_journal] at h

theorem runUntilIdle_requestsWireFrames {n : Nat} {s t : State} (h : runUntilIdle n s = .next t) :
    RequestsWireFrames s t :=
  runUntilIdle_induction (P := RequestsWireFrames s)
    (fun _ _ hs _ hb => hs.trans (.of_dropPorts (stepWith_requestsWireFrames hb))) n (.refl s) h

/-- Settles O59: a step is one block step and, where it accepts a command, the block steps of its run; a block step
records a write request only where BUILD has packed a frame. -/
theorem framesOnTheWire : Obligations.FramesOnTheWire := by
  intro s t h
  obtain ⟨p, u, hu, rfl | hrun⟩ := step_next h
  · exact RequestsWireFrames.of_dropPorts (stepWith_requestsWireFrames hu)
  · exact RequestsWireFrames.of_dropPorts
      ((stepWith_requestsWireFrames hu).trans (runUntilIdle_requestsWireFrames hrun))

/-! ### An illegal `OP` -/

/-- A step that finds a command runs it, whatever its `OP`. -/
theorem step_of_fetchedWord {s : State} {w : CmdWord} (h : fetchedWord s = some w) : step s = runCommand w s := by
  simp only [step, h]
  split
  · rename_i i hi
    rw [exec_eq_runCommand, encode_of_decode hi]
  · rfl

/-- On an open transport an illegal `OP` takes CHECK to ERROR, and ERROR to IDLE (42_transaction_sequencer.md rules R111
and R120). -/
theorem runUntilIdle_of_illegal {r : Regs} {a d : Nat} {check error : PortIn} {rest : List PortIn} {j : List Event}
    (hq : r.seq = .check) (hl : legalOp r.cw = false) (hc : check.rst = false) (he : error.rst = false)
    (ho : check.tpOpen = true) :
    runUntilIdle (check :: error :: rest).length ⟨r, a, check :: error :: rest, d, j⟩ =
      .next ⟨leaveError (raiseError .configuration .badRw r), a, rest, d, j ++ [.commandEnded]⟩ := by
  have hcheck : nextRegs a check r = .next (raiseError .configuration .badRw r) := by
    simp [nextRegs_check hc hq, checkRegs, ho, hl]
  rw [runUntilIdle_cons (by simp [hq]) hcheck, runUntilIdle_cons (by simp) (nextRegs_error he (raiseError_seq _ _ _)),
    runUntilIdle_idle (leaveError_seq _)]
  simp [emitted, outputs, hq]

/-- Settles O39: the word is accepted, CHECK rejects it and ERROR returns to IDLE. -/
theorem illegalOpEndsInConfigurationError : Obligations.IllegalOpEndsInConfigurationError := by
  rintro ⟨r, a, _, d, j⟩ accept check error rest (hq : r.seq = .idle) rfl ha hc he ho hv h0 h1
  have hfetch : fetchedWord ⟨r, a, accept :: check :: error :: rest, d, j⟩ = some accept.cmdWord :=
    if_pos ⟨hq, hv, by simp [ha]⟩
  have hillegal : legalOp accept.cmdWord = false := by
    rw [Bool.eq_false_iff, Ne, legalOp_iff]
    exact not_or.2 ⟨h0, h1⟩
  rw [step_of_fetchedWord hfetch, runCommand_accept hq ha,
    runUntilIdle_of_illegal (acceptCommand_seq _ _) hillegal hc he ho]
  simp [leaveError, raiseError, acceptCommand, hq]

/-! ### Equal operands -/

/-- Two blocks differ in the latch `CW` at most, and latch words with equal operands. -/
def LatchAlike (r u : Regs) : Prop := ∃ v, operandsOf v = operandsOf r.cw ∧ u = { r with cw := v }

theorem LatchAlike.refl (r : Regs) : LatchAlike r r := ⟨r.cw, rfl, rfl⟩

theorem LatchAlike.seq_eq {r u : Regs} (h : LatchAlike r u) : u.seq = r.seq := by
  obtain ⟨v, -, rfl⟩ := h
  rfl

/-- An update that neither reads nor writes `CW` keeps two blocks alike. -/
theorem LatchAlike.map {r u : Regs} (h : LatchAlike r u) (g : Regs → Regs) (hkeeps : (g r).cw = r.cw)
    (hignores : ∀ v, g { r with cw := v } = { g r with cw := v }) : LatchAlike (g r) (g u) := by
  obtain ⟨v, hv, rfl⟩ := h
  exact ⟨v, hkeeps ▸ hv, hignores v⟩

/-- `OP` is an operand, so CHECK treats the words alike. -/
theorem legalOp_congr {v w : CmdWord} (h : operandsOf v = operandsOf w) : legalOp v = legalOp w := by
  have hop : opField v = opField w := congrArg Command.rw h
  rw [legalOp, legalOp, hop]

theorem packedFrame_congr {v w : CmdWord} (h : operandsOf v = operandsOf w) : packedFrame v = packedFrame w := by
  rw [packedFrame, packedFrame, h]

theorem LatchAlike.idle {r u : Regs} (h : LatchAlike r u) (p : PortIn) : LatchAlike (idleRegs p r) (idleRegs p u) := by
  obtain ⟨v, hv, rfl⟩ := h
  unfold idleRegs
  split_ifs
  · exact .refl _
  · exact ⟨v, hv, rfl⟩

theorem LatchAlike.check {r u : Regs} (h : LatchAlike r u) (p : PortIn) :
    LatchAlike (checkRegs p r) (checkRegs p u) := by
  obtain ⟨v, hv, rfl⟩ := h
  simp only [checkRegs, legalOp_congr hv]
  split_ifs <;> exact ⟨v, hv, rfl⟩

/-- BUILD reads the operands alone of `CW` (42_transaction_sequencer.md rule R112). -/
theorem LatchAlike.build {r u : Regs} (h : LatchAlike r u) : LatchAlike (buildRegs r) (buildRegs u) := by
  obtain ⟨v, hv, rfl⟩ := h
  have hpack := packedFrame_congr hv
  cases hf : packedFrame r.cw with
  | none =>
    rw [buildRegs_of_none hf, buildRegs_of_none (hpack.trans hf)]
    exact ⟨v, hv, rfl⟩
  | some f =>
    rw [buildRegs_of_some hf, buildRegs_of_some (hpack.trans hf)]
    exact ⟨v, hv, by simp only [builtRegs, hv]⟩

theorem LatchAlike.send {r u : Regs} (h : LatchAlike r u) (p : PortIn) : LatchAlike (sendRegs p r) (sendRegs p u) := by
  unfold sendRegs
  split_ifs
  · exact h.map (raiseError .transport .none) rfl fun _ => rfl
  · exact h.map (goto .recv) rfl fun _ => rfl
  · exact h

theorem LatchAlike.endRead {r u : Regs} (h : LatchAlike r u) (p : PortIn) :
    LatchAlike (endReadRegs p r) (endReadRegs p u) := by
  unfold endReadRegs
  split_ifs
  · exact h.map (goto .parse) rfl fun _ => rfl
  · exact h

theorem LatchAlike.recv {r u : Regs} (h : LatchAlike r u) (n : Nat) (p : PortIn) :
    OutcomesAgree LatchAlike (recvRegs n p r) (recvRegs n p u) := by
  obtain ⟨habs, hcount⟩ : absorbs p u = absorbs p r ∧ u.rxCount = r.rxCount := by
    obtain ⟨v, -, rfl⟩ := h
    exact ⟨rfl, rfl⟩
  unfold recvRegs
  rw [habs, hcount]
  split_ifs
  · exact .next ((h.map (absorbByte p.tpRxByte) rfl fun _ => rfl).endRead p)
  · exact .refused _
  · exact .next (h.endRead p)

/-- The states in which no step rule reads `CW` are left by writing the same registers. -/
theorem LatchAlike.nextRegs_agree {r u : Regs} (h : LatchAlike r u) (n : Nat) (p : PortIn) :
    OutcomesAgree LatchAlike (nextRegs n p r) (nextRegs n p u) := by
  have hseq : u.seq = r.seq := h.seq_eq
  cases hp : p.rst with
  | true => rw [nextRegs_rst r hp, nextRegs_rst u hp]; exact .next (.refl _)
  | false =>
    cases hq : r.seq with
    | idle => rw [nextRegs_idle hp hq, nextRegs_idle hp (hseq.trans hq)]; exact .next (h.idle p)
    | check => rw [nextRegs_check hp hq, nextRegs_check hp (hseq.trans hq)]; exact .next (h.check p)
    | build => rw [nextRegs_build hp hq, nextRegs_build hp (hseq.trans hq)]; exact .next h.build
    | send => rw [nextRegs_send hp hq, nextRegs_send hp (hseq.trans hq)]; exact .next (h.send p)
    | recv => rw [nextRegs_recv hp hq, nextRegs_recv hp (hseq.trans hq)]; exact h.recv n p
    | parse =>
      rw [nextRegs_parse hp hq, nextRegs_parse hp (hseq.trans hq)]
      exact .next (h.map parseRegs rfl fun _ => rfl)
    | compare =>
      rw [nextRegs_compare hp hq, nextRegs_compare hp (hseq.trans hq)]
      exact .next (h.map compareRegs rfl fun _ => rfl)
    | done =>
      rw [nextRegs_done hp hq, nextRegs_done hp (hseq.trans hq)]
      exact .next (h.map doneRegs rfl fun _ => rfl)
    | error =>
      rw [nextRegs_error hp hq, nextRegs_error hp (hseq.trans hq)]
      exact .next (h.map leaveError rfl fun _ => rfl)

/-- The journal is not told of the latch. -/
theorem LatchAlike.emitted_eq {r u r' u' : Regs} (h : LatchAlike r u) (h' : LatchAlike r' u') (p : PortIn) :
    emitted p u u' = emitted p r r' := by
  obtain ⟨v, -, rfl⟩ := h
  obtain ⟨v', -, rfl⟩ := h'
  rfl

/-- Two states differ in the latch `CW` at most, and latch words with equal operands. -/
def StatesLatchAlike (s u : State) : Prop := ∃ r, LatchAlike s.regs r ∧ u = { s with regs := r }

theorem StatesLatchAlike.stepWith_agree {s u : State} (h : StatesLatchAlike s u) (p : PortIn) :
    OutcomesAgree StatesLatchAlike (stepWith p s) (stepWith p u) := by
  obtain ⟨r, hr, rfl⟩ := h
  obtain ⟨s', r', hs, hu, h'⟩ | ⟨e, hs, hu⟩ := hr.nextRegs_agree s.accBits p
  · simp only [stepWith, hs, hu, hr.emitted_eq h']
    exact .next ⟨r', h', rfl⟩
  · simp only [stepWith, hs, hu]
    exact .refused e

theorem dropPorts_withRegs (s : State) (r : Regs) :
    dropPorts { s with regs := r } = { dropPorts s with regs := r } := by
  obtain ⟨_, _, ps, _, _⟩ := s
  cases ps <;> rfl

/-- Both blocks see the same inputs. -/
theorem StatesLatchAlike.blockStep_agree {s u : State} (h : StatesLatchAlike s u) :
    OutcomesAgree StatesLatchAlike (blockStep s) (blockStep u) := by
  obtain ⟨r, hr, rfl⟩ := h
  have hnext : nextPorts { s with regs := r } = nextPorts s := rfl
  rw [blockStep, blockStep, hnext, dropPorts_withRegs s r]
  exact StatesLatchAlike.stepWith_agree ⟨r, by rwa [dropPorts_regs], rfl⟩ _

/-- A relation between states in the same `STATE` that every block step keeps is kept by a run. -/
theorem outcomesAgree_runUntilIdle {R : State → State → Prop} (hseq : ∀ s u, R s u → u.regs.seq = s.regs.seq)
    (hstep : ∀ s u, R s u → OutcomesAgree R (blockStep s) (blockStep u)) (n : Nat) {s u : State} (h : R s u) :
    OutcomesAgree R (runUntilIdle n s) (runUntilIdle n u) := by
  induction n generalizing s u with
  | zero => exact .next h
  | succ n ih =>
    by_cases hq : s.regs.seq = .idle
    · rw [runUntilIdle_idle hq, runUntilIdle_idle ((hseq s u h).trans hq)]
      exact .next h
    · have hq' : u.regs.seq ≠ .idle := hseq s u h ▸ hq
      obtain ⟨t, v, ht, hv, h'⟩ | ⟨e, ht, hv⟩ := hstep s u h
      · simpa only [runUntilIdle, if_neg hq, if_neg hq', ht, hv] using ih h'
      · simpa only [runUntilIdle, if_neg hq, if_neg hq', ht, hv] using .refused e

theorem StatesLatchAlike.seq_eq {s u : State} (h : StatesLatchAlike s u) : u.regs.seq = s.regs.seq := by
  obtain ⟨r, hr, rfl⟩ := h
  exact hr.seq_eq

theorem sameButLatch_of_agree {a b : Host.Outcome State Fault Refusal} (h : OutcomesAgree StatesLatchAlike a b) :
    SameButLatch a b := by
  obtain ⟨t, u, rfl, rfl, r, ⟨v, -, rfl⟩, rfl⟩ | ⟨e, rfl, rfl⟩ := h <;> rfl

theorem sameButLatch_refl (a : Host.Outcome State Fault Refusal) : SameButLatch a a := by
  cases a with
  | next s => rfl
  | fault e => cases e
  | refused e => rfl

/-- A busy block makes the block step that it would have made without the command (42_transaction_sequencer.md rule
R122). -/
theorem runCommand_busy (w : CmdWord) {s : State} (hq : s.regs.seq ≠ .idle) : runCommand w s = blockStep s := by
  have hregs (n : Nat) (p : PortIn) : nextRegs n (presenting w p) s.regs = nextRegs n p s.regs := by
    cases hs : s.regs.seq with
    | idle => exact absurd hs hq
    | _ => simp only [nextRegs, hs]; rfl
  have hstep (p : PortIn) : stepWith (presenting w p) (dropPorts s) = stepWith p (dropPorts s) := by
    simp only [stepWith, dropPorts_regs, hregs]; rfl
  rw [runCommand, hstep, ← blockStep]
  cases hb : blockStep s with
  | next t => exact if_neg hq
  | fault e => rfl
  | refused e => rfl

/-- Settles O7: only an idle block without a reset takes the word, and then the two runs are in step. -/
theorem equalOperandsRunAlike : Obligations.EqualOperandsRunAlike := by
  intro w w' s h
  by_cases hq : s.regs.seq = .idle
  · cases hp : (nextPorts s).rst with
    | true =>
      rw [runCommand_idle_rst hq hp, runCommand_idle_rst hq hp]
      exact sameButLatch_refl _
    | false =>
      rw [runCommand_idle hq hp, runCommand_idle hq hp, acceptedState_ports, acceptedState_ports]
      have halike : StatesLatchAlike (acceptedState w s) (acceptedState w' s) :=
        ⟨acceptCommand w' s.regs, ⟨w', h.symm, rfl⟩, rfl⟩
      exact sameButLatch_of_agree
        (outcomesAgree_runUntilIdle (fun _ _ h => h.seq_eq) (fun _ _ h => h.blockStep_agree) _ halike)
  · rw [runCommand_busy w hq, runCommand_busy w' hq]
    exact sameButLatch_refl _

end Sys2Proof.Proofs
end

section
/-! SUPPORT. 40_frame_encoder.md: the check byte, the choice of the frame, the return length and the unpacked operands. -/

namespace Sys2Proof.Proofs

open Sys2Proof.Machine Sys2Proof.Laws

/-! ### The check byte -/

theorem checkByte_eq_not (id : Byte) : checkByte id = ~~~id := BitVec.xor_allOnes

/-- Settles O12: XOR with eight ones flips every bit. -/
theorem checkByteIsTheComplement : Obligations.CheckByteIsTheComplement := ⟨checkByte_eq_not, by decide⟩

/-! ### The choice of the frame -/

theorem pack_rwRead (a l : Half) (d : Word) : pack Config.rwRead a l d = some (packRead a l) := rfl

theorem pack_rwWrite (a l : Half) (d : Word) : pack Config.rwWrite a l d = some (packWrite a l d) := rfl

theorem pack_eq_none {rw : Byte} (hread : rw ≠ Config.rwRead) (hwrite : rw ≠ Config.rwWrite) (a l : Half) (d : Word) :
    pack rw a l d = none := by
  rw [pack, if_neg hread, if_neg hwrite]

/-- An `rw` of READ or WRITE has a frame, whatever the other operands. -/
theorem pack_ne_none {rw : Byte} (h : rw = Config.rwRead ∨ rw = Config.rwWrite) (a l : Half) (d : Word) :
    pack rw a l d ≠ none := by
  rcases h with rfl | rfl
  · simp [pack_rwRead]
  · simp [pack_rwWrite]

/-- Settles O13: one equation of `pack` for each case; in BUILD the invariant's legal `OP` excludes the last. -/
theorem packDispatchesOnRw : Obligations.PackDispatchesOnRw := by
  intro rw a l d
  refine ⟨?_, ?_, fun hread hwrite => pack_eq_none hread hwrite a l d, fun s hinv hbuild => ?_⟩
  · rintro rfl
    exact pack_rwRead a l d
  · rintro rfl
    exact pack_rwWrite a l d
  · exact pack_ne_none (operandsOf_rw_legal (hinv.buildLegal hbuild)) a l d

/-! ### The return length -/

theorem returnLength_rwRead (l : Half) : returnLength Config.rwRead l = l := rfl

theorem returnLength_rwWrite (l : Half) : returnLength Config.rwWrite l = 1#16 := rfl

/-- No count is below a `RET_LEN` of 0. -/
theorem absorbs_of_retLen_zero {r : Regs} (h : r.retLen = 0#16) (p : PortIn) : absorbs p r = false := by
  simp [absorbs, h]

/-- Settles O14: a read of length 0 sets `RET_LEN` to 0, below which no count is. -/
theorem returnLengthOfReadAndWrite : Obligations.ReturnLengthOfReadAndWrite :=
  ⟨fun l => ⟨returnLength_rwRead l, returnLength_rwWrite l⟩,
    fun p _ h => absorbs_of_retLen_zero (h.trans (returnLength_rwRead 0#16)) p⟩

/-! ### The unpacked operands -/

/-- The two bytes of `be16` joined as `UnpackAddr` and `UnpackLen` join them are the value that was split: joining is
accumulating them from 0 (40_frame_encoder.md rule R88). -/
theorem be16_joined (v : Half) :
    ((be16 v).getD 0 0#8).toNat <<< 8 ||| ((be16 v).getD 1 0#8).toNat = v.toNat := by
  have h := foldl_accumulateByte_be16 0 v
  simpa [be16, accumulateByte] using h

/-- The four bytes of `be32` joined as `UnpackData` joins them are the value that was split (40_frame_encoder.md rule
R88). -/
theorem be32_joined (v : Word) :
    ((be32 v).getD 0 0#8).toNat <<< 24 ||| ((be32 v).getD 1 0#8).toNat <<< 16 ||| ((be32 v).getD 2 0#8).toNat <<< 8 |||
      ((be32 v).getD 3 0#8).toNat = v.toNat := by
  have h := foldl_accumulateByte_be32 0 v
  simpa [be32, accumulateByte, Nat.shiftLeft_or_distrib, ← Nat.shiftLeft_add] using h

/-- Settles O15: after the three header bytes, each field's bytes stand where the unpacking reads them. -/
theorem framesUnpackToTheirOperands : Obligations.FramesUnpackToTheirOperands := fun a l d =>
  ⟨be16_joined a, be16_joined l, be16_joined a, be16_joined l, be32_joined d⟩

end Sys2Proof.Proofs
end

section
/-! SUPPORT. 41_response_parser.md: the value of a byte sequence, its laws, RECV as the parser's hardware, and the refusal
of a build whose accumulator is too small. -/

namespace Sys2Proof.Proofs

open Sys2Proof.Machine Sys2Proof.Laws

/-! ### The value of a byte sequence -/

/-- Accumulating on from `acc`, every byte of `s` moves `acc` up one place and adds its own value at its place
(41_response_parser.md rule R96). -/
theorem foldl_accumulateByte_eq_sum (acc : Nat) (s : List Byte) :
    s.foldl accumulateByte acc =
      acc * 256 ^ s.length + ∑ i ∈ Finset.range s.length, (s.getD i 0#8).toNat * 256 ^ (s.length - 1 - i) := by
  induction s generalizing acc with
  | nil => simp
  | cons b s ih =>
    rw [List.foldl_cons, ih, accumulateByte_eq, List.length_cons, Finset.sum_range_succ']
    simp only [List.getD_cons_succ, List.getD_cons_zero, Nat.add_sub_cancel, Nat.sub_zero, Nat.sub_sub, Nat.add_comm 1]
    ring

/-- Settles O17: accumulating from 0 leaves the sum alone. -/
theorem parseIntIsTheBigEndianSum : Obligations.ParseIntIsTheBigEndianSum := by
  refine ⟨rfl, fun s hs => ?_⟩
  rw [parseInt_of_ne_nil hs, foldl_accumulateByte_eq_sum, Nat.zero_mul, Nat.zero_add]

/-- Every byte takes at most eight more bits. -/
theorem foldl_accumulateByte_lt (s : List Byte) {acc k : Nat} (h : acc < 2 ^ (8 * k)) :
    s.foldl accumulateByte acc < 2 ^ (8 * (k + s.length)) := by
  induction s generalizing acc k with
  | nil => exact h
  | cons b s ih =>
    rw [List.foldl_cons, List.length_cons, Nat.add_comm s.length, ← Nat.add_assoc]
    exact ih (accumulateByte_lt acc k b h)

/-- Settles O18: the accumulation starts from 0, which takes no bit. -/
theorem parseIntRange : Obligations.ParseIntRange := fun s hs =>
  ⟨_, parseInt_of_ne_nil hs, by simpa using foldl_accumulateByte_lt s (acc := 0) (k := 0) (by decide)⟩

/-! ### Leading zeros -/

theorem foldl_accumulateByte_zeros (n : Nat) : (List.replicate n 0#8).foldl accumulateByte 0 = 0 := by
  induction n with
  | zero => rfl
  | succ n ih =>
    rw [List.replicate_succ, List.foldl_cons, accumulateByte_eq]
    exact ih

/-- Settles O19: leading zero bytes leave the accumulator at 0, where it starts. -/
theorem leadingZerosAddNothing : Obligations.LeadingZerosAddNothing := by
  refine ⟨fun n s hs => ?_, fun n => ?_, rfl⟩
  · rw [parseInt_of_ne_nil (List.append_ne_nil_of_right_ne_nil _ hs), parseInt_of_ne_nil hs, List.foldl_append,
      foldl_accumulateByte_zeros]
  · rw [parseInt_of_ne_nil (by simp), foldl_accumulateByte_zeros]

/-! ### The smaller accumulator -/

theorem absorbs_eq_true_iff (p : PortIn) (r : Regs) :
    absorbs p r = true ↔ p.tpRxValid = true ∧ r.rxCount.toNat < r.retLen.toNat := by
  simp [absorbs]

/-- RECV is refused exactly where it would absorb a byte that the accumulator does not hold (41_response_parser.md rule
R103). -/
theorem recvRegs_refused_iff (n : Nat) (p : PortIn) (r : Regs) :
    recvRegs n p r = .refused .responseExceedsAccumulator ↔
      absorbs p r = true ∧ accumulatorBytes n < r.rxCount.toNat + 1 := by
  unfold recvRegs
  split
  · rename_i hab
    split
    · simpa [hab] using by omega
    · simpa [hab] using by omega
  · rename_i hab
    simp [hab]

/-- Only RECV refuses. -/
theorem nextRegs_refused {n : Nat} {p : PortIn} {r : Regs} {e : Refusal} (h : nextRegs n p r = .refused e) :
    p.rst = false ∧ r.seq = .recv ∧ recvRegs n p r = .refused e := by
  cases hp : p.rst with
  | true => simp [nextRegs_rst r hp] at h
  | false =>
    cases hq : r.seq with
    | recv => exact ⟨rfl, rfl, nextRegs_recv hp hq ▸ h⟩
    | _ => simp [nextRegs, hp, hq] at h

/-- Settles O57: RECV alone refuses, it stores the exact value, and under the invariant `ACC` fits the accumulator. -/
theorem smallAccumulatorIsRefusedNotTruncated : Obligations.SmallAccumulatorIsRefusedNotTruncated := by
  refine ⟨fun n p r => ⟨fun h => ?_, ?_⟩, fun n p r r' hq hp h => ?_, fun n p r r' hinv _ _ h => ?_⟩
  · obtain ⟨hp, hq, hrecv⟩ := nextRegs_refused h
    obtain ⟨hab, hfull⟩ := (recvRegs_refused_iff n p r).1 hrecv
    obtain ⟨hv, hroom⟩ := (absorbs_eq_true_iff p r).1 hab
    exact ⟨hp, hq, hv, hroom, hfull⟩
  · rintro ⟨hp, hq, hv, hroom, hfull⟩
    rw [nextRegs_recv hp hq]
    exact (recvRegs_refused_iff n p r).2 ⟨(absorbs_eq_true_iff p r).2 ⟨hv, hroom⟩, hfull⟩
  · rw [nextRegs_recv hp hq] at h
    simpa only [absorbs_eq_true_iff, accumulateByte_eq] using recvRegs_acc h
  · exact acc_fits (regsInv_nextRegs hinv h)

/-! ### RECV as the parser's hardware -/

/-- The registers after the bytes `bs` have been absorbed, one after another (41_response_parser.md rule R97). -/
def absorbBytes (bs : List Byte) (r : Regs) : Regs := bs.foldl (fun r b => absorbByte b r) r

/-- How many more bytes RECV may absorb (20_memory.md rule R54). -/
def roomLeft (r : Regs) : Nat := r.retLen.toNat - r.rxCount.toNat

theorem absorbBytes_cons (b : Byte) (bs : List Byte) (r : Regs) :
    absorbBytes (b :: bs) r = absorbBytes bs (absorbByte b r) := rfl

theorem absorbBytes_append (bs cs : List Byte) (r : Regs) :
    absorbBytes (bs ++ cs) r = absorbBytes cs (absorbBytes bs r) := List.foldl_append

@[simp] theorem absorbBytes_seq (bs : List Byte) (r : Regs) : (absorbBytes bs r).seq = r.seq := by
  induction bs generalizing r with
  | nil => rfl
  | cons b bs ih => exact ih (absorbByte b r)

@[simp] theorem absorbBytes_retLen (bs : List Byte) (r : Regs) : (absorbBytes bs r).retLen = r.retLen := by
  induction bs generalizing r with
  | nil => rfl
  | cons b bs ih => exact ih (absorbByte b r)

@[simp] theorem absorbBytes_acc (bs : List Byte) (r : Regs) :
    (absorbBytes bs r).acc = bs.foldl accumulateByte r.acc := by
  induction bs generalizing r with
  | nil => rfl
  | cons b bs ih => exact ih (absorbByte b r)

/-- `RX_COUNT` counts the bytes without wrapping, since RECV absorbs no more than there is room for. -/
theorem absorbBytes_rxCount_toNat {bs : List Byte} {r : Regs} (h : bs.length ≤ roomLeft r) :
    (absorbBytes bs r).rxCount.toNat = r.rxCount.toNat + bs.length := by
  induction bs generalizing r with
  | nil => rfl
  | cons b bs ih =>
    rw [List.length_cons, roomLeft] at h
    have hcount : (absorbByte b r).rxCount.toNat = r.rxCount.toNat + 1 := rxCount_succ_toNat (by omega)
    have hroom : bs.length ≤ roomLeft (absorbByte b r) := by
      rw [roomLeft, hcount, absorbByte_retLen]
      omega
    rw [absorbBytes_cons, ih hroom, hcount, List.length_cons]
    omega

theorem roomLeft_absorbBytes {bs : List Byte} {r : Regs} (h : bs.length ≤ roomLeft r) :
    roomLeft (absorbBytes bs r) = roomLeft r - bs.length := by
  rw [roomLeft, absorbBytes_rxCount_toNat h, absorbBytes_retLen, roomLeft, Nat.sub_add_eq]

theorem offeredByte_roomLeft (p : PortIn) (r : Regs) :
    offeredByte (roomLeft r) p = if absorbs p r then [p.tpRxByte] else [] := by
  simp [offeredByte, roomLeft, absorbs]

/-- The first bytes offered over `p :: ps` are the one taken from `p` and the first ones offered over `ps` that then
still have room. -/
theorem take_offered_cons (room : Nat) (p : PortIn) (ps : List PortIn) :
    ((p :: ps).filterMap offered).take room =
      offeredByte room p ++ (ps.filterMap offered).take (room - (offeredByte room p).length) := by
  cases hv : p.tpRxValid with
  | false => simp [offered, offeredByte, hv]
  | true =>
    cases room with
    | zero => simp [offeredByte]
    | succ m => simp [offered, offeredByte, hv]

/-- One RECV step absorbs the byte that it takes, where the accumulator holds it, and then looks at `tp_rd_done`
(42_transaction_sequencer.md rule R115). -/
theorem recvRegs_of_fits {n : Nat} {p : PortIn} {r : Regs}
    (h : r.rxCount.toNat + (offeredByte (roomLeft r) p).length ≤ accumulatorBytes n) :
    recvRegs n p r = .next (endReadRegs p (absorbBytes (offeredByte (roomLeft r) p) r)) := by
  rw [offeredByte_roomLeft] at h ⊢
  unfold recvRegs
  split
  · rename_i hab
    rw [if_pos hab] at h
    exact if_pos h
  · rfl

theorem blockStep_cons {p : PortIn} {ps : List PortIn} {r r' : Regs} {a d : Nat} {j : List Event}
    (h : nextRegs a p r = .next r') :
    blockStep ⟨r, a, p :: ps, d, j⟩ = .next ⟨r', a, ps, d, j ++ emitted p r r'⟩ := by
  simp [blockStep, stepWith, h]

theorem blockSteps_succ {n : Nat} {s t : State} (h : blockStep s = .next t) :
    blockSteps (n + 1) s = blockSteps n t := by
  rw [blockSteps, h]

/-- A visit to RECV that ends with the inputs `last` absorbs the first bytes offered, as many as there is room for, and
enters PARSE (42_transaction_sequencer.md rule R115). -/
theorem blockSteps_recv_to_parse (reads : List PortIn) (last : PortIn) (rest : List PortIn) {r : Regs} {a d : Nat}
    {j : List Event} (hq : r.seq = .recv) (hreads : ∀ p ∈ reads, p.rst = false ∧ p.tpRdDone = false)
    (hrst : last.rst = false) (hdone : last.tpRdDone = true)
    (hfits :
      r.rxCount.toNat + (((reads ++ [last]).filterMap offered).take (roomLeft r)).length ≤ accumulatorBytes a) :
    ∃ j', blockSteps (reads.length + 1) ⟨r, a, reads ++ last :: rest, d, j⟩ =
      .next
        ⟨goto .parse (absorbBytes (((reads ++ [last]).filterMap offered).take (roomLeft r)) r), a, rest, d, j'⟩ := by
  induction reads generalizing r j with
  | nil =>
    have htake : ([last].filterMap offered).take (roomLeft r) = offeredByte (roomLeft r) last := by
      simp [take_offered_cons]
    simp only [List.nil_append, htake] at hfits ⊢
    have hstep := (nextRegs_recv hrst hq).trans (recvRegs_of_fits hfits)
    rw [endReadRegs, if_pos hdone] at hstep
    exact ⟨_, blockSteps_succ (blockStep_cons hstep)⟩
  | cons p reads ih =>
    obtain ⟨hp, hpdone⟩ := hreads p List.mem_cons_self
    have hlen := offeredByte_length (roomLeft r) p
    have htake := take_offered_cons (roomLeft r) p (reads ++ [last])
    rw [← roomLeft_absorbBytes hlen] at htake
    simp only [List.cons_append, htake, absorbBytes_append, List.length_append, ← Nat.add_assoc] at hfits ⊢
    have hstep := (nextRegs_recv hp hq).trans (recvRegs_of_fits (Nat.le_of_add_right_le hfits))
    rw [endReadRegs, if_neg (by simp [hpdone])] at hstep
    rw [← absorbBytes_rxCount_toNat hlen] at hfits
    rw [List.length_cons, blockSteps_succ (blockStep_cons hstep)]
    exact ih ((absorbBytes_seq _ r).trans hq) (fun q hmem => hreads q (List.mem_cons_of_mem p hmem)) hfits

/-- Where `RX_COUNT` is the number of the bytes and `ACC` what they accumulate to, the two registers say `ParseInt` of
the bytes (41_response_parser.md rules R98 and R99). -/
theorem parseInt_of_rxCount_acc {s : List Byte} {r : Regs} (hcount : r.rxCount.toNat = s.length)
    (hacc : r.acc = s.foldl accumulateByte 0) : parseInt s = if r.rxCount = 0#16 then none else some r.acc := by
  have hzero : r.rxCount = 0#16 ↔ s = [] := by
    rw [← BitVec.toNat_inj, hcount]
    exact List.length_eq_zero_iff
  split
  · rename_i h
    rw [hzero.1 h]
    rfl
  · rename_i h
    rw [parseInt_of_ne_nil (mt hzero.2 h), hacc]

/-- Settles O20: RECV starts with the accumulator at 0 and room for `RET_LEN` bytes, so the bytes it absorbs are the
response. -/
theorem recvRealisesParseInt : Obligations.RecvRealisesParseInt := by
  rintro ⟨r, a, _, d, j⟩ reads last rest hq hacc hcount rfl hreads hrst hdone hfits
  dsimp only at hq hacc hcount hfits
  have hroom : roomLeft r = r.retLen.toNat := by simp [roomLeft, hcount]
  have hresp : responseIn r.retLen (reads ++ [last]) = ((reads ++ [last]).filterMap offered).take (roomLeft r) := by
    rw [responseIn, hroom]
  have hlen : (responseIn r.retLen (reads ++ [last])).length ≤ roomLeft r := hresp ▸ List.length_take_le _ _
  obtain ⟨j', hrun⟩ := blockSteps_recv_to_parse (a := a) (d := d) (j := j) reads last rest hq hreads hrst hdone
    (by rw [← hresp, hcount, BitVec.toNat_zero, Nat.zero_add]; exact hfits)
  rw [← hresp] at hrun
  have habsorbed : (absorbBytes (responseIn r.retLen (reads ++ [last])) r).rxCount.toNat =
      (responseIn r.retLen (reads ++ [last])).length := by
    simpa [hcount] using absorbBytes_rxCount_toNat hlen
  exact ⟨_, hrun, rfl, habsorbed, parseInt_of_rxCount_acc habsorbed (by simp [hacc])⟩

end Sys2Proof.Proofs
end

section
/-! SUPPORT. 42_transaction_sequencer.md: the step rule of each state, the next-state table, and what every block step
leaves alone. -/

namespace Sys2Proof.Proofs

open Sys2Proof.Machine Sys2Proof.Laws

/-! ### The step rules, state by state -/

/-- Settles O21: IDLE looks at `cmd_valid` alone. -/
theorem idleAcceptsAPresentedCommand : Obligations.IdleAcceptsAPresentedCommand := by
  intro n p r hq hp
  rw [nextRegs_idle hp hq, idleRegs]
  refine ⟨by simp [outputs, hq, hp], fun hv => ?_, fun hv => ?_⟩
  · rw [if_pos hv]
    rfl
  · rw [if_neg (by simp [hv])]

/-- Settles O22: CHECK looks at `tp_open`, then at `OP`. -/
theorem checkRejectsBeforeAnyIO : Obligations.CheckRejectsBeforeAnyIO := by
  intro n p r hq hp
  have hlegal : legalOp r.cw = true ↔ r.cw.extractLsb' 0 8 = 0x00#8 ∨ r.cw.extractLsb' 0 8 = 0x01#8 := legalOp_iff r.cw
  rw [nextRegs_check hp hq, checkRegs]
  refine ⟨fun ho => ?_, fun ho h0 h1 => ?_, fun ho hop => ?_, by simp [outputs, hq]⟩
  · rw [if_pos (by simp [ho])]
    rfl
  · rw [if_neg (by simp [ho]), if_neg (by simp [hlegal, h0, h1])]
    rfl
  · rw [if_neg (by simp [ho]), if_pos (hlegal.2 hop)]
    rfl

/-- A part of a field is a part of the word. -/
theorem extractLsb'_extractLsb' {w m n i k : Nat} (x : BitVec w) (h : k + n ≤ m) :
    (x.extractLsb' i m).extractLsb' k n = x.extractLsb' (i + k) n := by
  ext b hb
  simp [Nat.add_assoc, show k + b < m by omega]

theorem packedFrame_write {w : CmdWord} (h : opField w = Config.rwWrite) :
    packedFrame w = some (packWrite (operandsOf w).addr (operandsOf w).len (operandsOf w).data) := by
  rw [packedFrame, show (operandsOf w).rw = Config.rwWrite from h]
  exact pack_rwWrite _ _ _

theorem packedFrame_of_legalOp {w : CmdWord} (h : legalOp w = true) : ∃ f, packedFrame w = some f :=
  Option.ne_none_iff_exists'.1 (pack_ne_none (operandsOf_rw_legal h) _ _ _)

theorem packedFrame_of_illegal {w : CmdWord} (h : legalOp w = false) : packedFrame w = none := by
  obtain ⟨hread, hwrite⟩ : opField w ≠ Config.rwRead ∧ opField w ≠ Config.rwWrite := by simpa [legalOp] using h
  exact pack_eq_none hread hwrite _ _ _

/-- The operands of a READ's word, field by field of `CW` (42_transaction_sequencer.md rule R112). -/
theorem operandsOf_of_read {w : CmdWord} (h : opField w = 0x00#8) :
    operandsOf w =
      { rw := 0x00#8
        addr := w.extractLsb' 16 16
        len := if w.getLsbD 8 then w.extractLsb' 32 16 else 4#16
        data := w.extractLsb' 48 32
        expValid := w.getLsbD 9
        exp := if w.getLsbD 9 then w.extractLsb' 80 32 else 0#32 } := by
  rw [operandsOf, h]
  simp [expectedSet, expectedOperand, lengthOperand, fieldsOf, Config.rwWrite, Config.defaultLen]

/-- The operands of a WRITE's word, field by field of `CW` (42_transaction_sequencer.md rule R112). -/
theorem operandsOf_of_write {w : CmdWord} (h : opField w = 0x01#8) :
    operandsOf w =
      { rw := 0x01#8
        addr := w.extractLsb' 16 16
        len := if w.getLsbD 8 then w.extractLsb' 32 16 else 4#16
        data := w.extractLsb' 48 32
        expValid := true
        exp := if w.getLsbD 9 then w.extractLsb' 80 32 else 0x32#32 } := by
  rw [operandsOf, h]
  simp [expectedSet, expectedOperand, lengthOperand, fieldsOf, Config.rwWrite, Config.defaultLen, Config.ackDefault]

/-- Settles O23: the operands are read off `CW`, and each byte of the frame is a part of an operand. -/
theorem buildWritesCommandAndFrame : Obligations.BuildWritesCommandAndFrame := by
  intro n p r hq hp
  have haddrHi : (r.cw.extractLsb' 16 16).extractLsb' 8 8 = r.cw.extractLsb' 24 8 :=
    extractLsb'_extractLsb' _ (by decide)
  have haddrLo : (r.cw.extractLsb' 16 16).extractLsb' 0 8 = r.cw.extractLsb' 16 8 :=
    extractLsb'_extractLsb' _ (by decide)
  have hdata (k : Nat) (hk : k + 8 ≤ 32) : (r.cw.extractLsb' 48 32).extractLsb' k 8 = r.cw.extractLsb' (48 + k) 8 :=
    extractLsb'_extractLsb' _ hk
  rw [nextRegs_build hp hq, ← haddrHi, ← haddrLo]
  refine ⟨fun hop => ?_, fun hop => ?_⟩
  · rw [buildRegs_of_some (packedFrame_read hop), builtRegs, operandsOf_of_read hop]
    rfl
  · rw [buildRegs_of_some (packedFrame_write hop), builtRegs, operandsOf_of_write hop, ← hdata 24 (by decide),
      ← hdata 16 (by decide), ← hdata 8 (by decide), ← hdata 0 (by decide)]
    rfl

/-- Settles O24: err is looked at first, then ack; no branch writes the frame. -/
theorem sendWaitsForTheTransport : Obligations.SendWaitsForTheTransport := by
  intro n p r hq hp
  rw [nextRegs_send hp hq, sendRegs]
  refine ⟨⟨by simp [outputs, hq], rfl, rfl, rfl, by simp [outputs, hq]⟩, fun he => ?_, fun he ha => ?_, fun he ha => ?_,
    fun r' h => ?_⟩
  · rw [if_pos he]
    exact ⟨rfl, rfl, rfl⟩
  · rw [if_neg (by simp [he]), if_pos ha]
    rfl
  · rw [if_neg (by simp [he]), if_neg (by simp [ha])]
  · obtain rfl := Host.Outcome.next.inj h
    split_ifs <;> simp_all [outputs]

/-- Settles O25: `absorbs` is the condition for taking the byte, and `tp_rd_done` is looked at after it. -/
theorem recvAbsorbsOfferedBytes : Obligations.RecvAbsorbsOfferedBytes := by
  intro n p r hq hp
  have hend (r₁ : Regs) (h₁ : r₁.seq = .recv) :
      endReadRegs p r₁ = { r₁ with seq := if p.tpRdDone then .parse else .recv } := by
    unfold endReadRegs
    split
    · rfl
    · rw [← h₁]
  rw [nextRegs_recv hp hq, recvRegs]
  refine ⟨⟨by simp [outputs, hq], rfl⟩, fun hv hroom hfits => ?_, fun hno => ?_, fun hroom => ?_⟩
  · have hcount : BitVec.ofNat 16 (r.rxCount.toNat + 1) = r.rxCount + 1#16 := by
      rw [← rxCount_succ_toNat hroom, BitVec.ofNat_toNat, BitVec.setWidth_eq]
    rw [if_pos ((absorbs_eq_true_iff p r).2 ⟨hv, hroom⟩), if_pos (c := _ ≤ accumulatorBytes n) hfits,
      hend (absorbByte p.tpRxByte r) hq, hcount, ← accumulateByte_eq]
    rfl
  · have hab : absorbs p r = false := by
      obtain hv | hfull := hno
      · simp [absorbs, hv]
      · simp [absorbs, hfull]
    rw [if_neg (by simp [hab]), hend r hq]
  · have := r.retLen.isLt
    omega

/-- Settles O26: the flags are told by `RX_COUNT`, and COMPARE reads `ACC` where P_RECV_VALID is set. -/
theorem parseSetsTheWorkingFlags : Obligations.ParseSetsTheWorkingFlags := by
  intro n p r hq hp
  rw [nextRegs_parse hp hq]
  refine ⟨fun hne => ?_, fun hz => ?_, fun q r' h hv hp' => ?_⟩
  · simp [parseRegs, recvValidFlag, readbackFailedFlag, hne]
  · simp [parseRegs, recvValidFlag, readbackFailedFlag, hz]
  · obtain rfl := Host.Outcome.next.inj h
    exact ⟨_, nextRegs_compare hp' (parseRegs_seq r), hv, if_pos hv⟩

theorem mismatchFlag_iff (r : Regs) :
    mismatchFlag r = true ↔ r.cmd.expValid = true ∧ r.pRecvValid = true ∧ r.cmd.exp.toNat ≠ r.acc := by
  simp [mismatchFlag, and_assoc]

/-- What RECV does with the byte port touches the accumulator and its count alone (42_transaction_sequencer.md rule
R115). -/
theorem AbsorbMove.eq_withAcc {p : PortIn} {r r₁ : Regs} (h : AbsorbMove p r r₁) :
    r₁ = { r with acc := r₁.acc, rxCount := r₁.rxCount } := by
  obtain ⟨-, rfl⟩ | ⟨-, rfl⟩ := h <;> rfl

/-- COMPARE alone writes the result registers, apart from reset (42_transaction_sequencer.md rule R118). -/
theorem BlockMove.res_eq {p : PortIn} {r r' : Regs} (h : BlockMove p r r') (hp : p.rst = false)
    (hq : r.seq ≠ .compare) : r'.res = r.res := by
  cases h with
  | reset hrst => simp [hrst] at hp
  | compares _ hc => exact absurd hc hq
  | reads _ _ h₁ => rw [h₁.eq_withAcc]
  | endsRead _ _ h₁ => rw [h₁.eq_withAcc]; rfl
  | _ => rfl

/-- Settles O27: COMPARE's own rule, and the moves of the other states. -/
theorem compareRecordsTheResult : Obligations.CompareRecordsTheResult :=
  ⟨fun _ _ r hq hp => ⟨mismatchFlag r, mismatchFlag_iff r, nextRegs_compare hp hq⟩,
    fun _ _ _ _ hq hp h => (nextRegs_move h).res_eq hp hq⟩

/-- Settles O28: DONE moves to IDLE and shows the report. -/
theorem doneReportsAndReturnsToIdle : Obligations.DoneReportsAndReturnsToIdle := fun n p r hq hp =>
  ⟨by simp [outputs, hq], by simp [outputs, hq], rfl, by simp [outputs, hq], nextRegs_done hp hq⟩

/-- Settles O29: ERROR moves to IDLE and shows the close of its class. -/
theorem errorClosesAndReturnsToIdle : Obligations.ErrorClosesAndReturnsToIdle := fun n p r hq hp =>
  ⟨by simp [outputs, hq], by simp [outputs, hq, classCode_eq_two_iff], by simp [outputs, hq], by simp [outputs, hq],
    nextRegs_error hp hq⟩

/-! ### The next-state table and the inputs -/

/-- Settles O31: every move has its row of the table. -/
theorem nextStateTable : Obligations.NextStateTable := by
  intro n p r r' h
  cases nextRegs_move h with
  | reads hp hq h₁ hd => simp [h₁.seq, hq, hp, hd]
  | packFails hp hq hf =>
    have hillegal : legalOp r.cw ≠ true := fun hl => by
      obtain ⟨f, hf'⟩ := packedFrame_of_legalOp hl
      simp [hf] at hf'
    simp [hp, hq, hillegal]
  | builds => simp_all [builtRegs]
  | _ => simp_all [Regs.reset]

/-- RECV reads the byte port and `tp_rd_done` alone of the inputs. -/
theorem recvRegs_congr (n : Nat) {p q : PortIn} (r : Regs)
    (h : p.tpRxValid = q.tpRxValid ∧ p.tpRxByte = q.tpRxByte ∧ p.tpRdDone = q.tpRdDone) :
    recvRegs n p r = recvRegs n q r := by
  obtain ⟨hv, hb, hd⟩ := h
  have habs : absorbs p r = absorbs q r := by rw [absorbs, absorbs, hv]
  have hend : endReadRegs p = endReadRegs q := by
    funext r₁
    rw [endReadRegs, endReadRegs, hd]
  rw [recvRegs, recvRegs, habs, hb, hend]

/-- Settles O32: each step rule reads the inputs of its state alone. -/
theorem inputsOutsideTheirStateAreIgnored : Obligations.InputsOutsideTheirStateAreIgnored := by
  intro n p q r hrst hidle hcheck hsend hrecv
  cases hp : p.rst with
  | true => rw [nextRegs_rst r hp, nextRegs_rst r (hrst ▸ hp)]
  | false =>
    have hp' : q.rst = false := hrst ▸ hp
    cases hq : r.seq with
    | idle =>
      obtain ⟨hv, hw⟩ := hidle hq
      rw [nextRegs_idle hp hq, nextRegs_idle hp' hq, idleRegs, idleRegs, hv, hw]
    | check => rw [nextRegs_check hp hq, nextRegs_check hp' hq, checkRegs, checkRegs, hcheck hq]
    | send =>
      obtain ⟨ha, he⟩ := hsend hq
      rw [nextRegs_send hp hq, nextRegs_send hp' hq, sendRegs, sendRegs, ha, he]
    | recv => rw [nextRegs_recv hp hq, nextRegs_recv hp' hq, recvRegs_congr n r (hrecv hq)]
    | _ => simp only [nextRegs, hp, hp', hq]

/-- Settles O49: no move of a state after BUILD writes what BUILD has built. -/
theorem commandHoldsAfterBuild : Obligations.CommandHoldsAfterBuild := by
  intro n p r r' ha hp h
  cases nextRegs_move h with
  | reset hrst => simp [hrst] at hp
  | accepts _ hq => simp [afterBuild, hq] at ha
  | builds _ hq => simp [afterBuild, hq] at ha
  | reads _ _ h₁ => rw [h₁.eq_withAcc]; exact ⟨rfl, rfl, rfl, rfl, rfl⟩
  | endsRead _ _ h₁ => rw [h₁.eq_withAcc]; exact ⟨rfl, rfl, rfl, rfl, rfl⟩
  | _ => exact ⟨rfl, rfl, rfl, rfl, rfl⟩

end Sys2Proof.Proofs
end

section
/-! SUPPORT. 42_transaction_sequencer.md: the phases of a command's run, the transaction function that they realise, and
READ and WRITE over a whole exchange. -/

namespace Sys2Proof.Proofs

open Sys2Proof.Machine Sys2Proof.Laws

/-! ### The phases of a command's run -/

/-- CHECK refuses a closed transport and an illegal `OP`; ERROR then returns to IDLE (42_transaction_sequencer.md rules
R111 and R120). -/
theorem runUntilIdle_of_rejected {w : CmdWord} {r : Regs} {a d : Nat} {check error : PortIn} {rest : List PortIn}
    {j : List Event} (hc : check.rst = false) (he : error.rst = false)
    (hno : check.tpOpen = false ∨ legalOp w = false) :
    runUntilIdle (check :: error :: rest).length ⟨acceptCommand w r, a, check :: error :: rest, d, j⟩ =
      .next ⟨leaveError (raiseError .configuration (if check.tpOpen then .badRw else .closed) (acceptCommand w r)), a,
        rest, d, j ++ [.commandEnded]⟩ := by
  cases ho : check.tpOpen with
  | true => exact runUntilIdle_of_illegal rfl (by simpa [ho] using hno) hc he ho
  | false =>
    have hcheck : nextRegs a check (acceptCommand w r) =
        .next (raiseError .configuration .closed (acceptCommand w r)) := by
      simp [nextRegs_check hc (acceptCommand_seq w r), checkRegs, ho]
    rw [runUntilIdle_cons (by simp) hcheck, runUntilIdle_cons (by simp) (nextRegs_error he (raiseError_seq _ _ _)),
      runUntilIdle_idle (leaveError_seq _)]
    simp [emitted, outputs]

/-- CHECK lets a legal command on an open transport pass (42_transaction_sequencer.md rule R111). -/
theorem nextRegs_check_passes {n : Nat} {w : CmdWord} {r : Regs} {p : PortIn} (hp : p.rst = false)
    (ho : p.tpOpen = true) (hl : legalOp w = true) :
    nextRegs n p (acceptCommand w r) = .next (goto .build (acceptCommand w r)) := by
  simp [nextRegs_check hp (acceptCommand_seq w r), checkRegs, ho, hl]

/-- CHECK and BUILD take a legal command on an open transport to SEND, with its frame requested
(42_transaction_sequencer.md rules R111 and R112). -/
theorem runUntilIdle_to_send {w : CmdWord} {r : Regs} {a d : Nat} {check build : PortIn} {sends : List PortIn}
    {j : List Event} {f : List Byte} (hc : check.rst = false) (hb : build.rst = false) (ho : check.tpOpen = true)
    (hl : legalOp w = true) (hf : packedFrame w = some f) :
    runUntilIdle (check :: build :: sends).length ⟨acceptCommand w r, a, check :: build :: sends, d, j⟩ =
      runUntilIdle sends.length ⟨builtRegs f (acceptCommand w r), a, sends, d, j ++ [.writeRequested f]⟩ := by
  have hbuild : nextRegs a build (goto .build (acceptCommand w r)) = .next (builtRegs f (acceptCommand w r)) := by
    rw [nextRegs_build hb (goto_seq _ _), buildRegs_of_some hf]
    rfl
  have hframe : presentedFrame (builtRegs f (acceptCommand w r)) = f := presentedFrame_builtRegs hf
  have hseq : (builtRegs f (acceptCommand w r)).seq = .send := rfl
  rw [runUntilIdle_cons (by simp) (nextRegs_check_passes hc ho hl), runUntilIdle_cons (by simp) hbuild]
  simp [emitted, hframe, hseq]

/-- SEND and ERROR where the write fails (42_transaction_sequencer.md rules R114 and R120). -/
theorem runUntilIdle_of_failed_write {r : Regs} {a d : Nat} {sends : List PortIn} {error : PortIn} {rest : List PortIn}
    {j : List Event} (hq : r.seq = .send) (hrst : ∀ p ∈ sends, p.rst = false)
    (hw : tpWrite sends = some (false, error :: rest)) :
    runUntilIdle sends.length ⟨r, a, sends, d, j⟩ =
      .next ⟨leaveError (raiseError .transport .none r), a, rest, d,
        j ++ [.writeEnded false, .transportClosed, .commandEnded]⟩ := by
  have he : error.rst = false := hrst error ((tpWrite_suffix hw).subset List.mem_cons_self)
  have hsend := send_phase [] a d sends r j hq hrst
  simp only [hw, List.append_nil] at hsend
  rw [hsend, runUntilIdle_cons (by simp) (nextRegs_error he rfl), runUntilIdle_idle (leaveError_seq _)]
  simp [emitted, outputs, raiseError]

/-- The registers as RECV leaves them with the response `resp` (42_transaction_sequencer.md rule R115). -/
def receivedRegs (resp : List Byte) (r : Regs) : Regs :=
  { r with acc := resp.foldl accumulateByte 0, rxCount := BitVec.ofNat 16 resp.length, seq := .parse }

/-- SEND and RECV where the write succeeds and the read ends (42_transaction_sequencer.md rules R114 and R115); `tl` are
inputs after these. -/
theorem runUntilIdle_to_parse (tl : List PortIn) {r : Regs} {a d : Nat} {sends reads left : List PortIn}
    {resp : List Byte} {j : List Event} (hq : r.seq = .send) (hacc : r.acc = 0) (hcount : r.rxCount = 0#16)
    (hrst : ∀ p ∈ sends, p.rst = false) (hw : tpWrite sends = some (true, reads))
    (hr : tpRead r.retLen.toNat reads = some (resp, left)) (hfits : resp.length ≤ a / 8) :
    runUntilIdle (sends ++ tl).length ⟨r, a, sends ++ tl, d, j⟩ =
      runUntilIdle (left ++ tl).length ⟨receivedRegs resp r, a, left ++ tl, d,
        j ++ [.writeEnded true, .readRequested r.retLen, .readEnded]⟩ := by
  have hsend := send_phase tl a d sends r j hq hrst
  have hrecv := recv_phase tl a d reads { r with seq := .recv } (j ++ [.writeEnded true, .readRequested r.retLen]) rfl
    fun p hp => hrst p ((tpWrite_suffix hw).subset hp)
  have hroom : tpRead (r.retLen.toNat - r.rxCount.toNat) reads = some (resp, left) := by simpa [hcount] using hr
  simp only [hw] at hsend
  simp only [hroom] at hrecv
  obtain ⟨-, hrun⟩ := hrecv (by simpa [hcount] using hfits) (by simp [hcount])
  rw [hsend, hrun]
  simp [receivedRegs, hacc, hcount]

/-! ### The result -/

theorem transactionResult_mismatch_iff (c : Command) (resp : List Byte) :
    (transactionResult c resp).mismatch = true ↔
      c.expValid = true ∧ ∃ v, parseInt resp = some v ∧ c.exp.toNat ≠ v := by
  cases h : parseInt resp <;> simp [transactionResult, h]

/-- The registers after the command `w`, its frame `f` sent, has completed with the response `resp`
(42_transaction_sequencer.md rule R109). -/
def completedRegs (w : CmdWord) (f resp : List Byte) (r : Regs) : Regs where
  seq := .idle
  cw := w
  cmd := operandsOf w
  fb := storeFrame f r.fb
  fbLen := BitVec.ofNat 4 f.length
  retLen := returnLength (operandsOf w).rw (operandsOf w).len
  acc := (parseInt resp).getD 0
  rxCount := BitVec.ofNat 16 resp.length
  pRecvValid := (parseInt resp).isSome
  pRbf := decide (resp.length = 0)
  pMismatch := (transactionResult (operandsOf w) resp).mismatch
  eClass := .none
  eCause := .none
  res := transactionResult (operandsOf w) resp

/-- The working flags that PARSE sets are those of the response (42_transaction_sequencer.md rule R116). -/
theorem workingFlags_receivedRegs {resp : List Byte} (r : Regs) (h : resp.length < 2 ^ 16) :
    recvValidFlag (receivedRegs resp r) = (parseInt resp).isSome ∧
      readbackFailedFlag (receivedRegs resp r) = decide (resp.length = 0) := by
  have hzero : (BitVec.ofNat 16 resp.length == 0#16) = decide (resp.length = 0) := by
    rw [Bool.eq_iff_iff, beq_iff_eq, decide_eq_true_iff, ← BitVec.toNat_inj, BitVec.toNat_ofNat, Nat.mod_eq_of_lt h,
      BitVec.toNat_zero]
  refine ⟨?_, hzero⟩
  rw [recvValidFlag, receivedRegs, bne, hzero]
  cases resp <;> rfl

/-- PARSE, COMPARE and DONE record the TransactionResult (42_transaction_sequencer.md rules R116 to R119). -/
theorem compareRegs_receivedRegs (w : CmdWord) (f : List Byte) {resp : List Byte} (r : Regs)
    (h : resp.length < 2 ^ 16) :
    { compareRegs (parseRegs (receivedRegs resp (builtRegs f (acceptCommand w r)))) with seq := .idle } =
      completedRegs w f resp r := by
  obtain ⟨hvalid, hfailed⟩ := workingFlags_receivedRegs (builtRegs f (acceptCommand w r)) h
  have hmm : mismatchFlag (parseRegs (receivedRegs resp (builtRegs f (acceptCommand w r)))) =
      (transactionResult (operandsOf w) resp).mismatch := by
    rw [mismatchFlag, parseRegs_pRecvValid, hvalid]
    cases resp with
    | nil => simp [transactionResult, parseInt]
    | cons b bs => simp [transactionResult, parseInt, receivedRegs, builtRegs]
  have hres : resultOf (parseRegs (receivedRegs resp (builtRegs f (acceptCommand w r)))) =
      transactionResult (operandsOf w) resp := by
    rw [resultOf, hmm, parseRegs_pRecvValid, parseRegs_pRbf, hvalid, hfailed]
    cases resp <;> rfl
  rw [compareRegs, hmm, hres, parseRegs, hvalid, hfailed, completedRegs, parseInt_getD]
  rfl

/-! ### The whole command -/

/-- A read takes no more bytes than it asks for, so `RX_COUNT` does not wrap (20_memory.md rule R54). -/
theorem tpRead_length_lt {m : Half} {ps rest : List PortIn} {resp : List Byte}
    (h : tpRead m.toNat ps = some (resp, rest)) : resp.length < 2 ^ 16 :=
  (tpRead_some h).2.trans_lt m.isLt

/-- From an idle block, a command whose write succeeds and whose read ends is accepted, runs through every state and
leaves what the transaction function says (42_transaction_sequencer.md rule R109); `tl` are inputs after these. -/
theorem runCommand_completes (tl : List PortIn) {w : CmdWord} {r : Regs} {a d : Nat}
    {accept check build parse compare done : PortIn} {sends reads left : List PortIn} {j : List Event}
    {f resp : List Byte} (hq : r.seq = .idle) (hrst : ∀ p ∈ accept :: check :: build :: sends, p.rst = false)
    (ho : check.tpOpen = true) (hl : legalOp w = true) (hf : packedFrame w = some f)
    (hw : tpWrite sends = some (true, reads))
    (hr : tpRead (returnLength (operandsOf w).rw (operandsOf w).len).toNat reads =
      some (resp, parse :: compare :: done :: left)) (hfits : resp.length ≤ a / 8) :
    runCommand w ⟨r, a, accept :: check :: build :: (sends ++ tl), d, j⟩ =
      .next ⟨completedRegs w f resp r, a, left ++ tl, d,
        j ++ (Transaction.completed f (returnLength (operandsOf w).rw (operandsOf w).len)
          (transactionResult (operandsOf w) resp)).events⟩ := by
  simp only [List.forall_mem_cons] at hrst
  obtain ⟨ha, hc, hb, hsends⟩ := hrst
  have htail (p) (hp : p ∈ [parse, compare, done]) : p.rst = false :=
    hsends p ((tpWrite_suffix hw).subset ((tpRead_some hr).1.subset (List.mem_append_left left hp)))
  have hdone := compareRegs_receivedRegs w f r (tpRead_length_lt hr)
  have hres : (compareRegs (parseRegs (receivedRegs resp (builtRegs f (acceptCommand w r))))).res =
      transactionResult (operandsOf w) resp := congrArg Regs.res hdone
  rw [runCommand_accept hq ha, runUntilIdle_to_send hc hb ho hl hf,
    runUntilIdle_to_parse tl rfl rfl rfl hsends hw hr hfits, List.cons_append, List.cons_append, List.cons_append,
    tail_phase a d parse compare done _ _ _ rfl (htail _ (by simp)) (htail _ (by simp)) (htail _ (by simp)), hdone,
    hres]
  simp [Transaction.events, builtRegs]

/-! ### The transaction function -/

/-- The three ways in which inputs bring a command to its end: rejected in CHECK, failed in SEND, or completed
(42_transaction_sequencer.md rule R124). -/
theorem transactOn_some {w : CmdWord} {ports rest : List PortIn} {tx : Transaction}
    (h : transactOn w ports = some (tx, rest)) :
    (∃ check error, ports = check :: error :: rest ∧ (check.tpOpen = false ∨ legalOp w = false) ∧
      tx = transact w check.tpOpen true []) ∨
    (∃ check build sends, ports = check :: build :: sends ∧ check.tpOpen = true ∧ legalOp w = true ∧
      ((∃ error, tpWrite sends = some (false, error :: rest) ∧ tx = transact w true false []) ∨
        ∃ reads resp parse compare done, tpWrite sends = some (true, reads) ∧
          tpRead (returnLength (operandsOf w).rw (operandsOf w).len).toNat reads =
            some (resp, parse :: compare :: done :: rest) ∧
          tx = transact w true true resp)) := by
  unfold transactOn at h
  split at h
  · cases h
  · rename_i check afterCheck
    split at h
    · rename_i hno
      split at h
      · cases h
      · cases h
        exact .inl ⟨_, _, rfl, by simpa using hno, rfl⟩
    · rename_i hno
      obtain ⟨ho, hl⟩ : check.tpOpen = true ∧ legalOp w = true := by simpa using hno
      split at h
      · cases h
      · refine .inr ⟨_, _, _, rfl, ho, hl, ?_⟩
        split at h
        · cases h
        · cases h
        · rename_i hw
          cases h
          exact .inl ⟨_, hw, rfl⟩
        · rename_i hw
          split at h
          · rename_i hr
            cases h
            exact .inr ⟨_, _, _, _, _, hw, hr, rfl⟩
          · cases h

/-- The ways in which inputs end before a command does: in front of CHECK, of ERROR or BUILD, of SEND's answer, of ERROR
after a failed write, of the end of the read, or of the last three steps (42_transaction_sequencer.md rule R124). -/
theorem transactOn_none {w : CmdWord} {ports : List PortIn} (h : transactOn w ports = none) :
    ports = [] ∨ (∃ check, ports = [check]) ∨
    (∃ check build sends, ports = check :: build :: sends ∧ check.tpOpen = true ∧ legalOp w = true ∧
      (tpWrite sends = none ∨ tpWrite sends = some (false, []) ∨
        ∃ reads, tpWrite sends = some (true, reads) ∧
          (tpRead (returnLength (operandsOf w).rw (operandsOf w).len).toNat reads = none ∨
            ∃ resp left, tpRead (returnLength (operandsOf w).rw (operandsOf w).len).toNat reads = some (resp, left) ∧
              left.length < 3))) := by
  unfold transactOn at h
  split at h
  · exact .inl rfl
  · rename_i check afterCheck
    split at h
    · split at h
      · exact .inr (.inl ⟨_, rfl⟩)
      · cases h
    · rename_i hno
      obtain ⟨ho, hl⟩ : check.tpOpen = true ∧ legalOp w = true := by simpa using hno
      split at h
      · exact .inr (.inl ⟨_, rfl⟩)
      · refine .inr (.inr ⟨_, _, _, rfl, ho, hl, ?_⟩)
        split at h
        · exact .inl ‹_›
        · exact .inr (.inl ‹_›)
        · cases h
        · rename_i reads hw
          refine .inr (.inr ⟨reads, hw, ?_⟩)
          split at h
          · cases h
          · rename_i hshort
            cases hr : tpRead (returnLength (operandsOf w).rw (operandsOf w).len).toNat reads with
            | none => exact .inl rfl
            | some x =>
              match x, hr with
              | (resp, []), _ | (resp, [_]), _ | (resp, [_, _]), _ => exact .inr ⟨resp, _, rfl, by simp⟩
              | (resp, _ :: _ :: _ :: _), hr => exact absurd hr (hshort _ _ _ _ _)

/-- `Transact` rejects a closed transport first, then an illegal `OP` (42_transaction_sequencer.md rule R109). -/
theorem transact_of_rejected {w : CmdWord} {tpOpen : Bool} (h : tpOpen = false ∨ legalOp w = false) (wrOk : Bool)
    (resp : List Byte) :
    transact w tpOpen wrOk resp = .failed .configuration (if tpOpen then .badRw else .closed) none := by
  cases tpOpen with
  | false => rfl
  | true =>
    have hf := packedFrame_of_illegal (h.resolve_left Bool.noConfusion)
    unfold packedFrame at hf
    simp [transact, hf]

/-- `Transact` of a command with a frame turns on the write's result (42_transaction_sequencer.md rule R109). -/
theorem transact_of_frame {w : CmdWord} {f : List Byte} (hf : packedFrame w = some f) (wrOk : Bool) (resp : List Byte) :
    transact w true wrOk resp =
      if wrOk then
        .completed f (returnLength (operandsOf w).rw (operandsOf w).len) (transactionResult (operandsOf w) resp)
      else .failed .transport .none (some f) := by
  unfold packedFrame at hf
  cases wrOk <;> simp [transact, hf]

/-- Settles O41: each of the three ways to the end is a run of the phases. -/
theorem stepRulesRealiseTransact : Obligations.StepRulesRealiseTransact := by
  rintro w ⟨r, a, _, d, j⟩ accept ports rest tx (hq : r.seq = .idle) rfl hrst hfits htx
  dsimp only at hrst hfits ⊢
  have ⟨ha, hports⟩ := List.forall_mem_cons.1 hrst
  obtain ⟨check, error, rfl, hno, rfl⟩ | ⟨check, build, sends, rfl, ho, hl, hend⟩ := transactOn_some htx
  · have ⟨hc, hrest⟩ := List.forall_mem_cons.1 hports
    have ⟨he, _⟩ := List.forall_mem_cons.1 hrest
    rw [runCommand_accept hq ha, runUntilIdle_of_rejected hc he hno, transact_of_rejected hno]
    exact ⟨_, rfl, rfl, rfl, rfl, rfl, rfl, rfl, rfl⟩
  · obtain ⟨f, hf⟩ := packedFrame_of_legalOp hl
    obtain ⟨error, hw, rfl⟩ | ⟨reads, resp, parse, compare, done, hw, hr, rfl⟩ := hend
    · have ⟨hc, hrest⟩ := List.forall_mem_cons.1 hports
      have ⟨hb, hsends⟩ := List.forall_mem_cons.1 hrest
      rw [runCommand_accept hq ha, runUntilIdle_to_send hc hb ho hl hf, runUntilIdle_of_failed_write rfl hsends hw,
        transact_of_frame hf]
      exact ⟨_, rfl, rfl, rfl, rfl, rfl, rfl, rfl, by simp [Transaction.events]⟩
    · have hrun := runCommand_completes [] (d := d) (j := j) hq hrst ho hl hf hw hr ((tpRead_some hr).2.trans hfits)
      simp only [List.append_nil] at hrun
      rw [hrun, transact_of_frame hf]
      exact ⟨_, rfl, rfl, rfl, rfl, rfl, rfl, rfl, rfl⟩

/-! ### A script that ends first -/

/-- The outcome is a block that waits inside the command `w`, its script used up, and since the journal `j` no end of a
command has been told to the host. -/
def LeftWaiting (w : CmdWord) (j : List Event) (o : Host.Outcome State Fault Refusal) : Prop :=
  ∃ t ev, o = .next t ∧ t.regs.seq ≠ .idle ∧ t.ports = [] ∧ t.regs.cw = w ∧ t.journal = j ++ ev ∧ endsIn ev = 0

/-- A busy block with no inputs left stays where it is. -/
theorem leftWaiting_of_nil {r : Regs} {a d : Nat} {j ev : List Event} (hq : r.seq ≠ .idle) (hev : endsIn ev = 0) :
    LeftWaiting r.cw j (runUntilIdle ([] : List PortIn).length ⟨r, a, [], d, j ++ ev⟩) :=
  ⟨_, _, rfl, hq, rfl, rfl, rfl, hev⟩

/-- CHECK latches nothing and does not return to IDLE. -/
theorem checkRegs_busy (p : PortIn) (r : Regs) : (checkRegs p r).seq ≠ .idle ∧ (checkRegs p r).cw = r.cw := by
  unfold checkRegs
  split_ifs <;> simp

/-- Fewer than three steps do not take the block from PARSE to IDLE (42_transaction_sequencer.md rule R124). -/
theorem leftWaiting_of_short_tail {r : Regs} {a d : Nat} {j ev : List Event} {left : List PortIn} (hq : r.seq = .parse)
    (hrst : ∀ p ∈ left, p.rst = false) (hlen : left.length < 3) (hev : endsIn ev = 0) :
    LeftWaiting r.cw j (runUntilIdle left.length ⟨r, a, left, d, j ++ ev⟩) := by
  match left, hlen with
  | [], _ => exact leftWaiting_of_nil (by simp [hq]) hev
  | [parse], _ =>
    rw [runUntilIdle_cons (by simp [hq]) (nextRegs_parse (hrst parse (by simp)) hq)]
    simpa [emitted, hq] using leftWaiting_of_nil (r := parseRegs r) (a := a) (d := d) (j := j) (by simp) hev
  | [parse, compare], _ =>
    rw [runUntilIdle_cons (by simp [hq]) (nextRegs_parse (hrst parse (by simp)) hq),
      runUntilIdle_cons (by simp) (nextRegs_compare (hrst compare (by simp)) (parseRegs_seq r))]
    simpa [emitted, hq] using
      leftWaiting_of_nil (r := compareRegs (parseRegs r)) (a := a) (d := d) (j := j) (by simp) hev

/-- A write without an answer leaves the block in SEND, and a failed one in ERROR. -/
theorem leftWaiting_of_unsent {r : Regs} {a d : Nat} {j ev : List Event} {sends : List PortIn} (hq : r.seq = .send)
    (hrst : ∀ p ∈ sends, p.rst = false) (hw : tpWrite sends = none ∨ tpWrite sends = some (false, []))
    (hev : endsIn ev = 0) : LeftWaiting r.cw j (runUntilIdle sends.length ⟨r, a, sends, d, j ++ ev⟩) := by
  have hsend := send_phase [] a d sends r (j ++ ev) hq hrst
  obtain hw | hw := hw
  · simp only [hw, List.append_nil] at hsend
    rw [hsend]
    exact leftWaiting_of_nil (by simp [hq]) hev
  · simp only [hw, List.append_nil, List.append_assoc] at hsend
    rw [hsend]
    exact leftWaiting_of_nil (r := raiseError .transport .none r) (by simp) (by simpa [endsIn] using hev)

/-- A read that does not end leaves the default build in RECV. -/
theorem leftWaiting_of_unread {r : Regs} {d : Nat} {j ev : List Event} {sends reads : List PortIn} (hq : r.seq = .send)
    (hcount : r.rxCount = 0#16) (hrst : ∀ p ∈ sends, p.rst = false) (hw : tpWrite sends = some (true, reads))
    (hr : tpRead r.retLen.toNat reads = none) (hev : endsIn ev = 0) :
    LeftWaiting r.cw j (runUntilIdle sends.length ⟨r, Config.defaultAccBits, sends, d, j ++ ev⟩) := by
  have hsend := send_phase [] Config.defaultAccBits d sends r (j ++ ev) hq hrst
  have hrecv := recv_phase [] Config.defaultAccBits d reads { r with seq := .recv }
    (j ++ (ev ++ [.writeEnded true, .readRequested r.retLen])) rfl fun p hp => hrst p ((tpWrite_suffix hw).subset hp)
  simp only [hw, List.append_nil, List.append_assoc] at hsend
  have hroom : tpRead (r.retLen.toNat - r.rxCount.toNat) reads = none := by simpa [hcount] using hr
  simp only [hroom, List.append_nil] at hrecv
  obtain ⟨r', hrun, hseq, hcw⟩ := hrecv rfl
  rw [hsend, hrun, ← hcw]
  exact leftWaiting_of_nil (by simp [hseq]) (by simpa [endsIn] using hev)

/-- Settles O42: wherever the inputs end, the block stands in a state of the command. -/
theorem unansweredCommandStaysInItsTransaction : Obligations.UnansweredCommandStaysInItsTransaction := by
  rintro w ⟨r, a, _, d, j⟩ accept ports (hq : r.seq = .idle) rfl hrst (rfl : a = _) htx
  have ⟨ha, hports⟩ := List.forall_mem_cons.1 hrst
  show LeftWaiting w j _
  rw [runCommand_accept hq ha]
  obtain rfl | ⟨check, rfl⟩ | ⟨check, build, sends, rfl, ho, hl, hend⟩ := transactOn_none htx
  · exact ⟨_, [], rfl, by simp, rfl, rfl, by simp, rfl⟩
  · have ⟨hseq, hcw⟩ := checkRegs_busy check (acceptCommand w r)
    rw [runUntilIdle_cons (by simp) (nextRegs_check (hports check (by simp)) (acceptCommand_seq w r))]
    exact ⟨_, [], rfl, hseq, rfl, hcw, rfl, rfl⟩
  · obtain ⟨f, hf⟩ := packedFrame_of_legalOp hl
    have ⟨hc, hrest⟩ := List.forall_mem_cons.1 hports
    have ⟨hb, hsends⟩ := List.forall_mem_cons.1 hrest
    have hframe : endsIn [.writeRequested f] = 0 := rfl
    rw [runUntilIdle_to_send hc hb ho hl hf]
    obtain hw | hw | ⟨reads, hw, hr | ⟨resp, left, hr, hlen⟩⟩ := hend
    · exact leftWaiting_of_unsent rfl hsends (.inl hw) hframe
    · exact leftWaiting_of_unsent rfl hsends (.inr hw) hframe
    · exact leftWaiting_of_unread rfl rfl hsends hw hr hframe
    · have hleft (p) (hp : p ∈ left) : p.rst = false :=
        hsends p ((tpWrite_suffix hw).subset ((tpRead_some hr).1.subset hp))
      have hrun := runUntilIdle_to_parse [] (r := builtRegs f (acceptCommand w r)) (d := d)
        (j := j ++ [.writeRequested f]) rfl rfl rfl hsends hw hr ((tpRead_some hr).2.trans (retLen_fits_default _))
      simp only [List.append_nil, List.append_assoc] at hrun
      rw [hrun]
      exact leftWaiting_of_short_tail rfl hleft hlen rfl

/-! ### READ and WRITE over an exchange -/

/-- What it means that an exchange completes (42_transaction_sequencer.md rule R124). -/
theorem completes_iff (x : Exchange) :
    x.completes = true ↔
      (∀ p ∈ x.script, p.rst = false) ∧ x.check.tpOpen = true ∧ (∀ p ∈ x.waits, noAnswer p = true) ∧
        x.answer.tpWrAck = true ∧ x.answer.tpWrErr = false ∧ (∀ p ∈ x.reads, p.tpRdDone = false) ∧
        x.last.tpRdDone = true := by
  simp [Exchange.completes, and_assoc]

/-- SEND waits through the steps without an answer and takes the acknowledgement (20_memory.md rules R51 and R52). -/
theorem tpWrite_waits {waits : List PortIn} {answer : PortIn} (rest : List PortIn)
    (hwaits : ∀ p ∈ waits, noAnswer p = true) (hack : answer.tpWrAck = true) (herr : answer.tpWrErr = false) :
    tpWrite (waits ++ answer :: rest) = some (true, rest) := by
  induction waits with
  | nil => simp [tpWrite, hack, herr]
  | cons p waits ih =>
    have ⟨hp, hrest⟩ := List.forall_mem_cons.1 hwaits
    obtain ⟨hnoAck, hnoErr⟩ : p.tpWrAck = false ∧ p.tpWrErr = false := by simpa [noAnswer] using hp
    simpa [tpWrite, hnoAck, hnoErr] using ih hrest

/-- A read that ends with the inputs `last` takes the first bytes offered, as many as there is room for (20_memory.md
rules R51, R53 and R55). -/
theorem tpRead_reads {reads : List PortIn} {last : PortIn} (rest : List PortIn) (room : Nat)
    (hreads : ∀ p ∈ reads, p.tpRdDone = false) (hlast : last.tpRdDone = true) :
    tpRead room (reads ++ last :: rest) = some (((reads ++ [last]).filterMap offered).take room, rest) := by
  induction reads generalizing room with
  | nil => simp [tpRead, hlast, take_offered_cons]
  | cons p reads ih =>
    have ⟨hp, hrest⟩ := List.forall_mem_cons.1 hreads
    simp [tpRead, hp, ih _ hrest, take_offered_cons]

/-- A TransactionResult, its mismatch told by `mm`. -/
theorem transactionResult_eq {c : Command} {resp : List Byte} {mm : Bool}
    (hmm : mm = true ↔ c.expValid = true ∧ ∃ v, parseInt resp = some v ∧ c.exp.toNat ≠ v) :
    transactionResult c resp =
      { valid := true
        rw := c.rw
        addr := c.addr
        len := c.len
        data := c.data
        expValid := c.expValid
        exp := c.exp
        recvValid := (parseInt resp).isSome
        received := (parseInt resp).getD 0
        readbackFailed := decide (resp.length = 0)
        mismatch := mm } := by
  obtain rfl : (transactionResult c resp).mismatch = mm :=
    Bool.eq_iff_iff.2 ((transactionResult_mismatch_iff c resp).trans hmm.symm)
  cases resp <;> rfl

/-- A legal command with the operands `c` runs through an exchange that completes to the result of its response
(42_transaction_sequencer.md rules R106 and R109). -/
theorem runCommand_exchange {w : CmdWord} {c : Command} {s : State} {x : Exchange} {rest : List PortIn}
    {f resp : List Byte} (hq : s.regs.seq = .idle) (hports : s.ports = x.script ++ rest) (hx : x.completes = true)
    (hl : legalOp w = true) (hc : operandsOf w = c) (hf : pack c.rw c.addr c.len c.data = some f)
    (hresp : resp = x.response (returnLength c.rw c.len)) (hfits : resp.length ≤ s.accBits / 8) :
    runCommand w s = .next
      { s with
        regs := completedRegs w f resp s.regs
        ports := rest
        journal := s.journal ++
          (Transaction.completed f (returnLength c.rw c.len) (transactionResult c resp)).events } := by
  subst hc
  obtain ⟨r, a, _, d, j⟩ := s
  obtain rfl := hports
  obtain ⟨hrst, ho, hwaits, hack, herr, hreads, hlast⟩ := (completes_iff x).1 hx
  have hr : tpRead (returnLength (operandsOf w).rw (operandsOf w).len).toNat
      (x.reads ++ [x.last, x.parse, x.compare, x.done]) = some (resp, [x.parse, x.compare, x.done]) := by
    rw [hresp]
    exact tpRead_reads _ _ hreads hlast
  exact runCommand_completes rest hq hrst ho hl hf (tpWrite_waits _ hwaits hack herr) hr hfits

/-- Settles O36: the operands of a READ's word are its fields, so the general run is the one stated. -/
theorem readRunsToItsResult : Obligations.ReadRunsToItsResult := by
  rintro f s x rest len resp mm _ hq hports hx hlen hresp hfits hmm rfl
  have hc : operandsOf (encode (.read f)) =
      ⟨0x00#8, f.addr, len, f.data, f.expValid, if f.expValid then f.exp else 0#32⟩ := by
    rw [encode, operandsOf_layOut, hlen]
    simp [lengthOperand, expectedSet, expectedOperand, Config.rwRead, Config.rwWrite, Config.defaultLen]
  have hmm' : mm = true ↔
      f.expValid = true ∧ ∃ v, parseInt resp = some v ∧ (if f.expValid then f.exp else 0#32).toNat ≠ v := by
    rw [hmm]
    exact and_congr_right fun hv => by simp [hv]
  have hrun := runCommand_exchange hq hports hx (legalOp_encode (.read f)) hc rfl hresp hfits
  rw [completedRegs, hc, transactionResult_eq hmm'] at hrun
  exact hrun

/-- Settles O37: as O36; a WRITE always has an expected value. -/
theorem writeRunsToItsResult : Obligations.WriteRunsToItsResult := by
  rintro f s x rest len expected resp mm _ hq hports hx hlen hexp hresp hfits hmm rfl
  have hc : operandsOf (encode (.write f)) = ⟨0x01#8, f.addr, len, f.data, true, expected⟩ := by
    rw [encode, operandsOf_layOut, hlen, hexp]
    simp [lengthOperand, expectedSet, expectedOperand, Config.rwWrite, Config.defaultLen, Config.ackDefault]
  have hrun := runCommand_exchange hq hports hx (legalOp_encode (.write f)) hc rfl hresp hfits
  rw [completedRegs, hc, transactionResult_eq (mm := mm) (by simpa using hmm)] at hrun
  exact hrun

/-- Settles O43: a read of up to 0 bytes has the empty response, whatever is offered. -/
theorem zeroLengthReadIsAReadbackFailure : Obligations.ZeroLengthReadIsAReadbackFailure := by
  intro f s x rest hv hlen hq hports hx
  have hresp : [] = x.response f.len := by simp [Exchange.response, responseIn, hlen]
  have hrun := readRunsToItsResult f s x rest f.len [] false _ hq hports hx (by simp [hv]) hresp (Nat.zero_le _)
    (by simp [parseInt]) rfl
  exact ⟨_, hrun, rfl, rfl, rfl, rfl, rfl⟩

/-- Settles O44: the response to a WRITE is the first byte offered, so the result compares that byte. -/
theorem writeAckIsComparedWithExpected : Obligations.WriteAckIsComparedWithExpected := by
  intro f s x rest ack more hq hports hx hbits hoffered
  have hresp : [ack] = x.response 1#16 := by simp [Exchange.response, responseIn, hoffered]
  have hack : parseInt [ack] = some ack.toNat := by simp [parseInt, accumulateByte]
  have hrun := writeRunsToItsResult f s x rest _ _ [ack]
    (decide ((if f.expValid then f.exp else 0x32#32).toNat ≠ ack.toNat)) _ hq hports hx rfl rfl hresp
    (by simp; omega) (by simp [hack]) rfl
  refine ⟨_, hrun, rfl, by simp [hack], by simp [hack], rfl, fun hv => ?_, fun hv habove => ?_, fun hv => ?_⟩
  · refine ⟨?_, by simp [hv]⟩
    rw [ne_eq ack, ← BitVec.toNat_inj]
    simp [hv]
    omega
  · have := ack.isLt
    simp [hv]
    omega
  · simp [hv]

end Sys2Proof.Proofs
end

section
/-! SUPPORT. 42_transaction_sequencer.md: a machine step as a run of block steps, a block that waits, and what a command
asks of the transport and tells the host, in which order. -/

namespace Sys2Proof.Proofs

open Sys2Proof.Machine Sys2Proof.Laws

/-! ### Machine steps and block steps -/

theorem blockSteps_one (s : State) : blockSteps 1 s = blockStep s := by
  cases h : blockStep s <;> simp [blockSteps, h]

/-- A run until IDLE is a run of some number of block steps. -/
theorem runUntilIdle_eq_blockSteps (n : Nat) (s : State) : ∃ k, blockSteps k s = runUntilIdle n s := by
  induction n generalizing s with
  | zero => exact ⟨0, rfl⟩
  | succ n ih =>
    by_cases hq : s.regs.seq = .idle
    · exact ⟨0, (runUntilIdle_idle hq).symm⟩
    · cases hb : blockStep s with
      | next t =>
        obtain ⟨k, hk⟩ := ih t
        exact ⟨k + 1, by simp [blockSteps_succ hb, hk, runUntilIdle, hq, hb]⟩
      | fault e => cases e
      | refused e => exact ⟨1, by simp [blockSteps_one, runUntilIdle, hq, hb]⟩

theorem fetchedWord_iff {s : State} {w : CmdWord} :
    fetchedWord s = some w ↔
      (s.regs.seq = .idle ∧ (nextPorts s).cmdValid = true ∧ (nextPorts s).rst = false) ∧ (nextPorts s).cmdWord = w := by
  simp [fetchedWord]

/-- The host that presents the word already on the port changes nothing. -/
theorem presenting_self {w : CmdWord} {p : PortIn} (hv : p.cmdValid = true) (hw : p.cmdWord = w) :
    presenting w p = p := by
  subst hw
  simp [presenting, ← hv]

/-- Settles O55: a command that the port presents is accepted by a block step and runs on in block steps. -/
theorem stepIsARunOfBlockSteps : Obligations.StepIsARunOfBlockSteps := by
  intro s
  obtain hb | ⟨w, hw, hc⟩ := step_cases s
  · exact ⟨1, Nat.one_pos, (blockSteps_one s).trans hb.symm⟩
  · obtain ⟨⟨hq, hv, -⟩, hword⟩ := fetchedWord_iff.1 hw
    rw [hc, runCommand, presenting_self hv hword, ← blockStep]
    cases hb : blockStep s with
    | next t =>
      obtain ⟨k, hk⟩ := runUntilIdle_eq_blockSteps t.ports.length t
      exact ⟨k + 1, Nat.succ_pos k, by simp only [blockSteps_succ hb, hk, hq, if_true]⟩
    | fault e => cases e
    | refused e => exact ⟨1, Nat.one_pos, (blockSteps_one s).trans hb⟩

/-- Settles O50: `exec` presents the command's word, which a busy block ignores. -/
theorem busyBlockIgnoresACommand : Obligations.BusyBlockIgnoresACommand := fun i s hq =>
  (exec_eq_runCommand i s).trans (runCommand_busy _ hq)

/-- Settles O54: what the port presents is fetched exactly in an idle block without a reset. -/
theorem stepRunsTheDecodedInstruction : Obligations.StepRunsTheDecodedInstruction := by
  refine ⟨fun i s hq hp hv hd => ?_, fun e s hq hp hv hd => ?_, fun s hno => ?_⟩
  · simp only [step, fetchedWord_iff.2 ⟨⟨hq, hv, hp⟩, rfl⟩, hd]
  · simp only [step, fetchedWord_iff.2 ⟨⟨hq, hv, hp⟩, rfl⟩, hd]
  · have hfetch : fetchedWord s = none := by
      rw [Option.eq_none_iff_forall_ne_some]
      intro w hw
      obtain ⟨⟨hq, hv, hp⟩, -⟩ := fetchedWord_iff.1 hw
      simp [hq, hv, hp] at hno
    simp only [step, hfetch]

/-! ### Waiting -/

/-- Inputs that neither change a register nor tell the journal anything are used up and nothing else happens. -/
theorem blockSteps_of_still {waits : List PortIn} (rest : List PortIn) {r : Regs} {a d : Nat} {j : List Event}
    (h : ∀ p ∈ waits, nextRegs a p r = .next r ∧ emitted p r r = []) :
    blockSteps waits.length ⟨r, a, waits ++ rest, d, j⟩ = .next ⟨r, a, rest, d, j⟩ := by
  induction waits with
  | nil => rfl
  | cons p waits ih =>
    have ⟨⟨hnext, hquiet⟩, hrest⟩ := List.forall_mem_cons.1 h
    rw [List.length_cons, List.cons_append, blockSteps_succ (blockStep_cons hnext), hquiet, List.append_nil]
    exact ih hrest

/-- Settles O58: without an answer SEND and RECV leave every register and the journal as they are. -/
theorem unansweredBlockWaits : Obligations.UnansweredBlockWaits := by
  rintro ⟨r, a, _, d, j⟩ waits rest rfl hrst
  refine ⟨fun (hq : r.seq = .send) hno => blockSteps_of_still rest fun p hp => ?_,
    fun (hq : r.seq = .recv) hno => blockSteps_of_still rest fun p hp => ?_⟩
  · obtain ⟨hack, herr⟩ := hno p hp
    rw [nextRegs_send (hrst p hp) hq]
    simp [sendRegs, emitted, hq, hack, herr]
  · obtain ⟨hbyte, hdone⟩ := hno p hp
    rw [nextRegs_recv (hrst p hp) hq]
    simp [recvRegs, absorbs, endReadRegs, emitted, hq, hbyte, hdone]

/-! ### The order of a command's events -/

/-- What has been recorded since the command was accepted, in each state of a block that runs it; in IDLE, an end of the
command or a reset has cut off the events of some transaction (42_transaction_sequencer.md rules R113 to R120). -/
def CommandEvents (r : Regs) (ev : List Event) : Prop :=
  match r.seq with
  | .check | .build => ev = []
  | .send => ∃ f, ev = [.writeRequested f]
  | .recv => ∃ f m, ev = [.writeRequested f, .writeEnded true, .readRequested m]
  | .parse | .compare | .done => ∃ f m, ev = [.writeRequested f, .writeEnded true, .readRequested m, .readEnded]
  | .error =>
    r.eClass = .configuration ∧ ev = [] ∨ r.eClass = .transport ∧ ∃ f, ev = [.writeRequested f, .writeEnded false]
  | .idle => ∃ tx : Transaction, ev <+: tx.events

/-- In every state the events so far begin those of some transaction. -/
theorem CommandEvents.begins_transaction {r : Regs} {ev : List Event} (h : CommandEvents r ev) :
    ∃ tx : Transaction, ev <+: tx.events := by
  have hcompleted (f : List Byte) (m : Half) (n : Nat) :
      (Transaction.completed f m .reset).events.take n <+: (Transaction.completed f m .reset).events :=
    List.take_prefix n _
  cases hq : r.seq with
  | idle => simpa only [CommandEvents, hq] using h
  | check | build =>
    obtain rfl : ev = [] := by simpa only [CommandEvents, hq] using h
    exact ⟨.failed .none .none none, List.nil_prefix⟩
  | send =>
    obtain ⟨f, rfl⟩ : ∃ f, ev = [.writeRequested f] := by simpa only [CommandEvents, hq] using h
    exact ⟨_, hcompleted f 0#16 1⟩
  | recv =>
    obtain ⟨f, m, rfl⟩ : ∃ f m, ev = [.writeRequested f, .writeEnded true, .readRequested m] := by
      simpa only [CommandEvents, hq] using h
    exact ⟨_, hcompleted f m 3⟩
  | parse | compare | done =>
    obtain ⟨f, m, rfl⟩ : ∃ f m, ev = [.writeRequested f, .writeEnded true, .readRequested m, .readEnded] := by
      simpa only [CommandEvents, hq] using h
    exact ⟨_, hcompleted f m 4⟩
  | error =>
    simp only [CommandEvents, hq] at h
    obtain ⟨-, rfl⟩ | ⟨-, f, rfl⟩ := h
    · exact ⟨.failed .none .none none, List.nil_prefix⟩
    · exact ⟨.failed .transport .none (some f), List.prefix_append _ _⟩

/-- The step that ends the command completes the events of a transaction (42_transaction_sequencer.md rules R119 and
R120). -/
theorem CommandEvents.ends {r : Regs} {ev : List Event} (h : CommandEvents r ev) (p : PortIn) (r' : Regs)
    (hq : r.seq = .done ∨ r.seq = .error) : ∃ tx : Transaction, ev ++ emitted p r r' = tx.events := by
  obtain hq | hq := hq
  · simp only [CommandEvents, hq] at h
    obtain ⟨f, m, rfl⟩ := h
    exact ⟨.completed f m r.res, by simp [emitted, hq, Transaction.events, outputs]⟩
  · simp only [CommandEvents, hq] at h
    obtain ⟨hc, rfl⟩ | ⟨hc, f, rfl⟩ := h
    · exact ⟨.failed .configuration .none none, by simp [emitted, hq, hc, Transaction.events, outputs]⟩
    · exact ⟨.failed .transport .none (some f), by simp [emitted, hq, hc, Transaction.events, outputs]⟩

/-- Whatever the step into IDLE emits, the events begin those of a transaction; a reset emits nothing unless the command
ends in its very step (70_reset_and_hazards.md rule R172). -/
theorem CommandEvents.idle {p : PortIn} {r r' : Regs} {ev : List Event} (h : CommandEvents r ev) (hq : r'.seq = .idle)
    (hend : r.seq = .done ∨ r.seq = .error ∨ emitted p r r' = []) : CommandEvents r' (ev ++ emitted p r r') := by
  simp only [CommandEvents, hq]
  rw [← or_assoc] at hend
  obtain hend | hend := hend
  · obtain ⟨tx, htx⟩ := h.ends p r' hend
    exact ⟨tx, htx ▸ List.prefix_rfl⟩
  · simpa only [hend, List.append_nil] using h.begins_transaction

/-- A block step of a busy block leads from the events of its state to those of the next. -/
theorem CommandEvents.move {p : PortIn} {r r' : Regs} {ev : List Event} (h : CommandEvents r ev) (hm : BlockMove p r r')
    (hi : r.seq ≠ .idle) : CommandEvents r' (ev ++ emitted p r r') := by
  cases hm with
  | reset hrst =>
    refine h.idle rfl ?_
    cases hq : r.seq <;> simp [emitted, hq, hrst, Regs.reset]
  | idles _ hq => exact absurd hq hi
  | accepts _ hq => exact absurd hq hi
  | writeFails hp hq he =>
    obtain ⟨f, rfl⟩ : ∃ f, ev = [.writeRequested f] := by simpa only [CommandEvents, hq] using h
    simp [CommandEvents, emitted, hq, hp, he]
  | writeSucceeds hp hq he ha =>
    obtain ⟨f, rfl⟩ : ∃ f, ev = [.writeRequested f] := by simpa only [CommandEvents, hq] using h
    simp [CommandEvents, emitted, hq, hp, he, ha]
  | reads hp hq h₁ hd => simpa [CommandEvents, emitted, h₁.seq, hq, hp, hd] using h
  | endsRead hp hq _ hd =>
    obtain ⟨f, m, rfl⟩ : ∃ f m, ev = [.writeRequested f, .writeEnded true, .readRequested m] := by
      simpa only [CommandEvents, hq] using h
    simp [CommandEvents, emitted, hq, hp, hd]
  | finishes _ hq => exact h.idle rfl (.inl hq)
  | leavesError _ hq => exact h.idle rfl (.inr (.inl hq))
  | builds => simp_all [CommandEvents, emitted, builtRegs]
  | _ => simp_all [CommandEvents, emitted]

/-- `t` comes after `s`, and what has been recorded between them are the events of a command that `t` runs or has
left. -/
def RunsOneCommand (s t : State) : Prop := ∃ ev, t.journal = s.journal ++ ev ∧ CommandEvents t.regs ev

theorem RunsOneCommand.after_blockStep {s t u : State} (h : RunsOneCommand s t) (hi : t.regs.seq ≠ .idle)
    (hb : blockStep t = .next u) : RunsOneCommand s u := by
  obtain ⟨ev, hj, hev⟩ := h
  obtain ⟨r, hr, rfl⟩ := stepWith_next hb
  rw [dropPorts_regs] at hr
  refine ⟨ev ++ emitted (nextPorts t) t.regs r, ?_, hev.move (nextRegs_move hr) hi⟩
  simp only [dropPorts_journal, dropPorts_regs, hj, List.append_assoc]

theorem RunsOneCommand.after_run {n : Nat} {s t u : State} (h : RunsOneCommand s t)
    (hrun : runUntilIdle n t = .next u) : RunsOneCommand s u :=
  runUntilIdle_induction (fun _ _ h hi hb => h.after_blockStep hi hb) n h hrun

/-- A command that an idle block accepts, or that a reset keeps it from accepting, records the events of one command. -/
theorem runCommand_runsOneCommand {w : CmdWord} {s t : State} (hq : s.regs.seq = .idle)
    (h : runCommand w s = .next t) : RunsOneCommand s t := by
  cases hp : (nextPorts s).rst with
  | true =>
    obtain rfl : { dropPorts s with regs := .reset } = t := by simpa [runCommand_idle_rst hq hp] using h
    exact ⟨[], by simp, ⟨.failed .none .none none, List.nil_prefix⟩⟩
  | false =>
    rw [runCommand_idle hq hp] at h
    have haccepted : RunsOneCommand s (acceptedState w s) := ⟨[], by simp [acceptedState], rfl⟩
    exact haccepted.after_run h

/-- What the host may rely on of one command's events: each of them at most once, a read only after a write that
succeeded, a report only after the read's end (42_transaction_sequencer.md rule R128, 20_memory.md rule R49). -/
structure OrderlyEvents (ev : List Event) : Prop where
  writes : writesIn ev ≤ 1
  reads : readsIn ev ≤ 1
  readAfterWrite : ∀ m before after, ev = before ++ .readRequested m :: after → .writeEnded true ∈ before
  ends : endsIn ev ≤ 1
  reports : (reportsIn ev).length ≤ 1
  closes : closesIn ev ≤ 1
  reportAfterRead : ∀ r before after, ev = before ++ .reported r :: after → .readEnded ∈ before

/-- What begins an orderly list is orderly. -/
theorem OrderlyEvents.of_isPrefix {ev ev' : List Event} (h : OrderlyEvents ev') (hpre : ev <+: ev') :
    OrderlyEvents ev where
  writes := hpre.sublist.countP_le.trans h.writes
  reads := hpre.sublist.countP_le.trans h.reads
  readAfterWrite m before after he := by
    obtain ⟨more, rfl⟩ := hpre
    exact h.readAfterWrite m before (after ++ more) (by simp [he])
  ends := (hpre.sublist.count_le _).trans h.ends
  reports := (hpre.sublist.filterMap _).length_le.trans h.reports
  closes := (hpre.sublist.count_le _).trans h.closes
  reportAfterRead r before after he := by
    obtain ⟨more, rfl⟩ := hpre
    exact h.reportAfterRead r before (after ++ more) (by simp [he])

/-- An event that does not stand in the beginning `l` of a list stands behind all of `l`. -/
theorem mem_before_of_append {α : Type} {a x : α} {l m before after : List α} (h : l ++ m = before ++ x :: after)
    (ha : a ∈ l) (hx : x ∉ l) : a ∈ before := by
  obtain ⟨c, rfl, -⟩ | ⟨c, rfl, hc⟩ := List.append_eq_append_iff.1 h
  · exact List.mem_append_left _ ha
  · cases c with
    | nil => simpa using ha
    | cons y c =>
      obtain ⟨rfl, -⟩ := List.cons.inj hc
      simp at hx

/-- Events in which nothing is read or reported are in order. -/
theorem orderlyEvents_of_unread {ev : List Event} (hwrites : writesIn ev ≤ 1) (hends : endsIn ev ≤ 1)
    (hcloses : closesIn ev ≤ 1) (hreads : readsIn ev = 0) (hreports : reportsIn ev = []) : OrderlyEvents ev where
  writes := hwrites
  reads := by omega
  readAfterWrite m before after h := by simp [h, readsIn] at hreads
  ends := hends
  reports := by simp [hreports]
  closes := hcloses
  reportAfterRead r before after h := by simp [h, reportsIn] at hreports

/-- A transaction's events are orderly. -/
theorem orderlyEvents_of_transaction (tx : Transaction) : OrderlyEvents tx.events := by
  cases tx with
  | failed c k f =>
    cases c with
    | transport => exact orderlyEvents_of_unread le_rfl le_rfl le_rfl rfl rfl
    | none | configuration => exact orderlyEvents_of_unread (Nat.zero_le _) le_rfl (Nat.zero_le _) rfl rfl
  | completed f m res =>
    exact
      { writes := le_rfl
        reads := le_rfl
        readAfterWrite := fun m' before after h =>
          mem_before_of_append (l := [.writeRequested f, .writeEnded true]) h (by simp) (by simp)
        ends := le_rfl
        reports := le_rfl
        closes := Nat.zero_le _
        reportAfterRead := fun r before after h =>
          mem_before_of_append (l := [.writeRequested f, .writeEnded true, .readRequested m, .readEnded]) h (by simp)
            (by simp) }

/-- Settles O45: over any inputs the events are the beginning of one transaction's, which are orderly. -/
theorem atMostOneFrameAndOneRead : Obligations.AtMostOneFrameAndOneRead := by
  intro w s t u n hq ht hu
  obtain ⟨ev, hj, hev⟩ := (runCommand_runsOneCommand hq ht).after_run hu
  obtain ⟨tx, hpre⟩ := hev.begins_transaction
  obtain ⟨hw, hr, hrw, he, hrep, hc, hrr⟩ := (orderlyEvents_of_transaction tx).of_isPrefix hpre
  exact ⟨ev, hj, hw, hr, hrw, he, hrep, hc, hrr⟩

end Sys2Proof.Proofs
end

section
/-! SUPPORT. 60_exceptions.md: the report, the precise entry into ERROR, the errors of a whole command, and what the way a
command ended decides. -/

namespace Sys2Proof.Proofs

open Sys2Proof.Machine Sys2Proof.Laws

/-! ### The report -/

/-- The report of a WRITE carries what was written (60_exceptions.md rule R160). -/
theorem reportOf_value_of_write {res : Result} (h : res.rw = Config.rwWrite) :
    (reportOf res).valueValid = true ∧ (reportOf res).value = res.data.toNat :=
  ⟨if_pos h, if_pos h⟩

/-- The report of anything but a WRITE carries what was received (60_exceptions.md rule R160). -/
theorem reportOf_value_of_ne_write {res : Result} (h : res.rw ≠ Config.rwWrite) :
    (reportOf res).valueValid = res.recvValid ∧ (reportOf res).value = res.received :=
  ⟨if_neg h, if_neg h⟩

/-- Settles O35: the report port shows `reportOf` of the result registers. -/
theorem reportCarriesDataOrReceived : Obligations.ReportCarriesDataOrReceived := by
  intro p r hq _
  have hread (hrw : r.res.rw = 0x00#8) : r.res.rw ≠ Config.rwWrite := by
    rw [hrw]
    decide
  exact ⟨by simp [outputs, hq], rfl, rfl, rfl, rfl, reportOf_value_of_write,
    fun hrw => reportOf_value_of_ne_write (hread hrw), rfl, rfl⟩

/-! ### Entering ERROR -/

/-- ERROR is entered by raising an error, and in no other way (60_exceptions.md rule R141). -/
theorem BlockMove.raises_of_seq_error {p : PortIn} {r r' : Regs} (h : BlockMove p r r') (hr : r.seq ≠ .error)
    (he : r'.seq = .error) : ∃ c k, r' = raiseError c k r := by
  cases h with
  | findsClosed | rejects | packFails | writeFails => exact ⟨_, _, rfl⟩
  | idles | writeWaits => exact absurd he hr
  | reads _ _ h₁ => exact absurd (h₁.seq.symm.trans he) hr
  | leavesError _ hq => exact absurd hq hr
  | _ => cases he

/-- Settles O48: raising an error writes the class, the cause and `STATE`. -/
theorem enteringErrorIsPrecise : Obligations.EnteringErrorIsPrecise := by
  intro n p r r' hr h he
  obtain ⟨c, k, rfl⟩ := (nextRegs_move h).raises_of_seq_error hr he
  rfl

/-! ### A closed transport -/

/-- On a closed transport every command is accepted and ends in ConfigurationError CLOSED (60_exceptions.md rules R142 and
R149). -/
theorem runCommand_of_closed {w : CmdWord} {r : Regs} {a d : Nat} {accept check error : PortIn} {rest : List PortIn}
    {j : List Event} (hq : r.seq = .idle) (ha : accept.rst = false) (hc : check.rst = false) (he : error.rst = false)
    (ho : check.tpOpen = false) :
    runCommand w ⟨r, a, accept :: check :: error :: rest, d, j⟩ =
      .next ⟨{ r with cw := w, eClass := .configuration, eCause := .closed }, a, rest, d, j ++ [.commandEnded]⟩ := by
  rw [runCommand_accept hq ha, runUntilIdle_of_rejected hc he (.inl ho)]
  simp [leaveError, raiseError, acceptCommand, ho, hq]

/-- Settles O38: READ, WRITE and a step that finds any word on the port are runs of one command. -/
theorem closedTransportEndsInConfigurationError : Obligations.ClosedTransportEndsInConfigurationError := by
  rintro ⟨r, a, _, d, j⟩ _ accept check error rest w (hq : r.seq = .idle) rfl ha hc he ho rfl
  have hrun := runCommand_of_closed (w := w) (a := a) (d := d) (rest := rest) (j := j) hq ha hc he ho
  refine ⟨?_, ?_, fun hv hw => ?_⟩
  · rintro f rfl
    exact hrun
  · rintro f rfl
    exact hrun
  · have hfetch : fetchedWord ⟨r, a, accept :: check :: error :: rest, d, j⟩ = some w :=
      fetchedWord_iff.2 ⟨⟨hq, hv, ha⟩, hw⟩
    rw [step_of_fetchedWord hfetch]
    exact hrun

/-! ### A failed write -/

/-- Inputs without an answer do not count for a write (20_memory.md rule R52). -/
theorem tpWrite_append_of_noAnswer {waits : List PortIn} (ps : List PortIn) (h : ∀ p ∈ waits, noAnswer p = true) :
    tpWrite (waits ++ ps) = tpWrite ps := by
  induction waits with
  | nil => rfl
  | cons p waits ih =>
    have ⟨hp, hrest⟩ := List.forall_mem_cons.1 h
    obtain ⟨hnoAck, hnoErr⟩ : p.tpWrAck = false ∧ p.tpWrErr = false := by simpa [noAnswer] using hp
    simpa [tpWrite, hnoAck, hnoErr] using ih hrest

/-- Settles O40: CHECK and BUILD request the frame, SEND waits and fails, ERROR closes the transport. -/
theorem failedWriteEndsInTransportError : Obligations.FailedWriteEndsInTransportError := by
  rintro i ⟨r, a, _, d, j⟩ accept check build waits answer error rest _ frame (hq : r.seq = .idle) rfl hrst ho hwaits
    herr rfl hframe
  simp only [List.forall_mem_cons] at hrst
  obtain ⟨ha, hc, hb, hsends⟩ := hrst
  have hfail : tpWrite (waits ++ answer :: error :: rest) = some (false, error :: rest) := by
    rw [tpWrite_append_of_noAnswer _ (by simpa using hwaits), tpWrite, if_pos herr]
  rw [exec_eq_runCommand, runCommand_accept hq ha, runUntilIdle_to_send hc hb ho (legalOp_encode i) hframe,
    runUntilIdle_of_failed_write rfl hsends hfail]
  simp [leaveError, raiseError, builtRegs, acceptCommand, hq]

/-! ### How a command ended -/

/-- How a command ended without a reset, with the registers it left and the events it recorded: the rows of the table in
60_exceptions.md rule R148. -/
inductive CommandOutcome (w : CmdWord) (r : Regs) : List Event → Prop
  | completed (hclass : r.eClass = .none) (hcause : r.eCause = .none) (hvalid : r.res.valid = true)
      (hrw : r.res.rw = opField w) (f : List Byte) (m : Half) :
      CommandOutcome w r (Transaction.completed f m r.res).events
  | rejected (hclass : r.eClass = .configuration)
      (hcause : r.eCause = .closed ∨ r.eCause = .badRw ∧ legalOp w = false) : CommandOutcome w r [.commandEnded]
  | writeFailed (hclass : r.eClass = .transport) (hcause : r.eCause = .none) (f : List Byte) :
      CommandOutcome w r (Transaction.failed .transport .none (some f)).events

/-- What the registers of a block that runs the command `w` hold towards its outcome: no error before ERROR, and the `OP`
on its way from `CW` to the command registers to the result registers. -/
def TowardsOutcome (w : CmdWord) (r : Regs) : Prop :=
  match r.seq with
  | .check | .build => (r.eClass = .none ∧ r.eCause = .none) ∧ r.cw = w
  | .send | .recv | .parse | .compare => (r.eClass = .none ∧ r.eCause = .none) ∧ r.cmd.rw = opField w
  | .done => (r.eClass = .none ∧ r.eCause = .none) ∧ r.res.valid = true ∧ r.res.rw = opField w
  | .error =>
    r.eClass = .configuration ∧ (r.eCause = .closed ∨ r.eCause = .badRw ∧ legalOp w = false) ∨
      r.eClass = .transport ∧ r.eCause = .none
  | .idle => True

/-- BUILD has no frame for an illegal `OP` only (40_frame_encoder.md rule R85). -/
theorem illegal_of_packedFrame_none {w : CmdWord} (h : packedFrame w = none) : legalOp w = false := by
  rw [Bool.eq_false_iff]
  intro hl
  obtain ⟨f, hf⟩ := packedFrame_of_legalOp hl
  simp [h] at hf

/-- Every block step of a busy block leads on towards the outcome. -/
theorem TowardsOutcome.move {w : CmdWord} {p : PortIn} {r r' : Regs} (h : TowardsOutcome w r) (hm : BlockMove p r r')
    (hi : r.seq ≠ .idle) : TowardsOutcome w r' := by
  cases hm with
  | reset => trivial
  | idles _ hq => exact absurd hq hi
  | accepts _ hq => exact absurd hq hi
  | findsClosed => exact .inl ⟨rfl, .inl rfl⟩
  | rejects _ hq _ hl =>
    obtain ⟨-, rfl⟩ : _ ∧ r.cw = w := by simpa only [TowardsOutcome, hq] using h
    exact .inl ⟨rfl, .inr ⟨rfl, hl⟩⟩
  | packFails _ hq hf =>
    obtain ⟨-, rfl⟩ : _ ∧ r.cw = w := by simpa only [TowardsOutcome, hq] using h
    exact .inl ⟨rfl, .inr ⟨rfl, illegal_of_packedFrame_none hf⟩⟩
  | writeFails => exact .inr ⟨rfl, rfl⟩
  | builds _ hq f =>
    obtain ⟨hnone, rfl⟩ : _ ∧ r.cw = w := by simpa only [TowardsOutcome, hq] using h
    exact ⟨hnone, rfl⟩
  | reads _ hq h₁ =>
    rw [h₁.eq_withAcc]
    exact h
  | endsRead _ hq h₁ =>
    rw [h₁.eq_withAcc]
    simpa [TowardsOutcome, hq] using h
  | _ => simp_all [TowardsOutcome, resultOf]

/-- Without a reset a busy block returns to IDLE from DONE and from ERROR only (42_transaction_sequencer.md rule R123). -/
theorem BlockMove.returns_to_idle {p : PortIn} {r r' : Regs} (h : BlockMove p r r') (hp : p.rst = false)
    (hi : r.seq ≠ .idle) (hi' : r'.seq = .idle) :
    r.seq = .done ∧ r' = doneRegs r ∨ r.seq = .error ∧ r' = leaveError r := by
  cases h with
  | reset hrst => simp [hrst] at hp
  | idles | writeWaits => exact absurd hi' hi
  | reads _ _ h₁ => exact absurd (h₁.seq.symm.trans hi') hi
  | finishes _ hq => exact .inl ⟨hq, rfl⟩
  | leavesError _ hq => exact .inr ⟨hq, rfl⟩
  | _ => cases hi'

/-- The DONE step settles that the command has completed (42_transaction_sequencer.md rule R119). -/
theorem TowardsOutcome.completed {w : CmdWord} {r : Regs} {ev : List Event} (h : TowardsOutcome w r)
    (hev : CommandEvents r ev) (p : PortIn) (hq : r.seq = .done) :
    CommandOutcome w (doneRegs r) (ev ++ emitted p r (doneRegs r)) := by
  simp only [TowardsOutcome, hq] at h
  obtain ⟨⟨hclass, hcause⟩, hvalid, hrw⟩ := h
  obtain ⟨f, m, rfl⟩ : ∃ f m, ev = [.writeRequested f, .writeEnded true, .readRequested m, .readEnded] := by
    simpa only [CommandEvents, hq] using hev
  simpa [emitted, hq, outputs, Transaction.events] using
    CommandOutcome.completed (r := doneRegs r) hclass hcause hvalid hrw f m

/-- The ERROR step settles which error has ended the command (42_transaction_sequencer.md rule R120). -/
theorem TowardsOutcome.failed {w : CmdWord} {r : Regs} {ev : List Event} (h : TowardsOutcome w r)
    (hev : CommandEvents r ev) (p : PortIn) (hq : r.seq = .error) :
    CommandOutcome w (leaveError r) (ev ++ emitted p r (leaveError r)) := by
  simp only [TowardsOutcome, hq] at h
  simp only [CommandEvents, hq] at hev
  obtain ⟨hclass, hcause⟩ | ⟨hclass, hcause⟩ := h
  · obtain rfl : ev = [] := by simpa [hclass] using hev
    simpa [emitted, hq, hclass, outputs] using CommandOutcome.rejected (r := leaveError r) hclass hcause
  · obtain ⟨f, rfl⟩ : ∃ f, ev = [.writeRequested f, .writeEnded false] := by simpa [hclass] using hev
    simpa [emitted, hq, hclass, outputs, Transaction.events] using
      CommandOutcome.writeFailed (r := leaveError r) hclass hcause f

/-- What has been recorded between `s` and `t` are the events of the command `w`, which `t` runs towards its outcome or, in
IDLE, has brought to it. -/
def RunsToOutcome (w : CmdWord) (s t : State) : Prop :=
  ∃ ev, t.journal = s.journal ++ ev ∧ CommandEvents t.regs ev ∧ TowardsOutcome w t.regs ∧
    (t.regs.seq = .idle → CommandOutcome w t.regs ev)

/-- A block step without a reset keeps a busy block on its run to the outcome. -/
theorem RunsToOutcome.move {w : CmdWord} {s : State} {r r' : Regs} {a d : Nat} {p : PortIn} {ps : List PortIn}
    {j : List Event} (h : RunsToOutcome w s ⟨r, a, p :: ps, d, j⟩) (hm : BlockMove p r r') (hp : p.rst = false)
    (hi : r.seq ≠ .idle) : RunsToOutcome w s ⟨r', a, ps, d, j ++ emitted p r r'⟩ := by
  obtain ⟨ev, rfl, hev, hto, -⟩ := h
  refine ⟨ev ++ emitted p r r', List.append_assoc _ _ _, hev.move hm hi, hto.move hm hi, fun hi' => ?_⟩
  obtain ⟨hq, rfl⟩ | ⟨hq, rfl⟩ := hm.returns_to_idle hp hi hi'
  · exact hto.completed hev p hq
  · exact hto.failed hev p hq

/-- A command that an idle block runs without a reset runs to its outcome. -/
theorem runCommand_runsToOutcome {w : CmdWord} {s t : State} (hq : s.regs.seq = .idle) (hr : NoReset s)
    (h : runCommand w s = .next t) : RunsToOutcome w s t := by
  obtain ⟨hfirst, hrest⟩ := hr
  rw [runCommand_idle hq hfirst] at h
  have haccepted : RunsToOutcome w s (acceptedState w s) :=
    ⟨[], by simp [acceptedState], rfl, ⟨⟨rfl, rfl⟩, rfl⟩, fun hi => nomatch hi⟩
  obtain ⟨⟨hrun, -⟩, -⟩ := runUntilIdle_script
    (P := fun u => RunsToOutcome w s u ∧ ∀ p ∈ u.ports, p.rst = false)
    (fun r a p ps d j r' ⟨hrun, hports⟩ hbusy hn =>
      ⟨hrun.move (nextRegs_move hn) (hports p List.mem_cons_self) hbusy,
        fun q hq => hports q (List.mem_cons_of_mem _ hq)⟩)
    (acceptedState w s).ports
    ⟨haccepted, fun p hp => hrest p (List.mem_of_mem_tail (acceptedState_ports w s ▸ hp))⟩ h
  exact hrun

/-- An error leaves the result registers as they were (60_exceptions.md rule R141). -/
theorem CommandPath.res_eq_of_error {w : CmdWord} {r₀ r : Regs} (h : CommandPath w r₀ r)
    (hc : r.eClass = .configuration ∨ r.eClass = .transport) : r.res = r₀.res := by
  obtain hc | hc := hc
  · have hu := h.unbuilt (.inr (.inr hc))
    rw [OnlyLatchAndErrorWritten] at hu
    rw [hu]
  · obtain ⟨-, -, -, hres, -⟩ := h.built (.inr hc)
    exact hres

/-- Settles O46: the outcome's row of the table, its events counted; the path says what an error leaves alone. -/
theorem outcomeTable : Obligations.OutcomeTable := by
  intro w s t hq hr h ht
  obtain ⟨ev, hj, -, -, hout⟩ := runCommand_runsToOutcome hq hr h
  obtain ⟨hpath, -⟩ := runCommand_path hq hr h
  refine ⟨ev, hj, ?_⟩
  cases hout ht with
  | completed hclass hcause hvalid hrw f m =>
    exact ⟨rfl, .inl ⟨hclass, hcause, hvalid, hrw, rfl, rfl⟩⟩
  | rejected hclass hcause =>
    exact ⟨rfl, .inr (.inl ⟨hclass, hcause, hpath.res_eq_of_error (.inl hclass), rfl, rfl, rfl⟩)⟩
  | writeFailed hclass hcause f =>
    exact ⟨rfl, .inr (.inr ⟨hclass, hcause, hpath.res_eq_of_error (.inr hclass), rfl, rfl, rfl⟩)⟩

end Sys2Proof.Proofs
end

section
/-! SUPPORT. 70_reset_and_hazards.md: what reset writes, the transaction it abandons, and the state it leaves. -/

namespace Sys2Proof.Proofs

open Sys2Proof.Machine Sys2Proof.Laws

/-! ### The state after reset -/

theorem statusWord_reset : statusWord .reset = 0#32 := by decide

theorem defaultBuild_valid : ValidBuild State.reset := by
  unfold ValidBuild
  decide

/-- Settles O53: the invariant holds of the reset registers in every build; the rest are closed facts of `State.reset`. -/
theorem resetMeetsInv : Obligations.ResetMeetsInv :=
  ⟨regsInv_reset _, rfl, defaultBuild_valid, rfl, statusWord_reset, rfl⟩

/-! ### A step with `rst = 1` -/

/-- Only DONE and ERROR close the transport, report or tell the host of an end (10_state.md rules R32 to R34). -/
theorem outputs_silent {r : Regs} (hd : r.seq ≠ .done) (he : r.seq ≠ .error) (rst : Bool) :
    (outputs rst r).tpClose = false ∧ (outputs rst r).rptValid = false ∧ (outputs rst r).rspValid = false := by
  simp [outputs, hd, he]

/-- A reset abandons what is under way without an end (70_reset_and_hazards.md rule R172). -/
theorem emitted_reset {p : PortIn} {r : Regs} (hp : p.rst = true) (hd : r.seq ≠ .done) (he : r.seq ≠ .error) :
    emitted p r .reset = [] := by
  cases hq : r.seq with
  | build => simp [emitted, hq, Regs.reset]
  | send | recv => simp [emitted, hq, hp]
  | done => exact absurd hq hd
  | error => exact absurd hq he
  | _ => simp [emitted, hq]

/-- A reset step takes its inputs, writes the reset registers and records what the step emits, nothing else. -/
theorem blockStep_rst {s : State} (hp : (nextPorts s).rst = true) :
    blockStep s =
      .next { dropPorts s with regs := .reset, journal := s.journal ++ emitted (nextPorts s) s.regs .reset } := by
  simp [blockStep, stepWith, nextRegs_rst _ hp]

/-- No command is accepted in a reset step, so the machine makes its one block step. -/
theorem step_rst {s : State} (hp : (nextPorts s).rst = true) : step s = blockStep s :=
  let ⟨_, _, hother⟩ := stepRunsTheDecodedInstruction
  hother s (.inr (.inl hp))

/-- Settles O30: `rst` overrides every state; the reset registers drive no request and nothing that DONE and ERROR drive,
and neither of these two is in the journal's clause. -/
theorem resetClearsEveryRegister : Obligations.ResetClearsEveryRegister := by
  refine ⟨fun n p r hp => ⟨by simp [outputs, hp], .reset, nextRegs_rst r hp, rfl, rfl, rfl, rfl, rfl, rfl, rfl, rfl, rfl,
    rfl, rfl, rfl, rfl, rfl, statusWord_reset, fun rst => ⟨rfl, rfl, ?_⟩⟩, fun r hq rst => ?_, fun s hp hd he => ?_⟩
  · exact outputs_silent (r := .reset) (by decide) (by decide) rst
  · obtain hq | hq := hq <;> exact outputs_silent (by simp [hq]) (by simp [hq]) rst
  · refine ⟨_, (step_rst hp).trans (blockStep_rst hp), rfl, ?_, dropPorts_accBits s⟩
    simp [emitted_reset hp hd he]

end Sys2Proof.Proofs
end
